-- ==== Sys2Proof/Word.lean ====
section
/-! DEFINITION. The word types of the ZACwire decode core: the widths the spec fixes (00_scope.md R6, 30_encoding.md R80 and R84).
Every number of the hardware is unsigned (R7). -/

namespace Sys2Proof

/-- An operation word `op[35:0]` (R80). -/
abbrev OpWord := BitVec 36

/-- A response word `rsp[35:0]` (R84). -/
abbrev RspWord := BitVec 36

/-- One interval measurement, `W` = 32 bits unsigned (R6). -/
abbrev Interval := BitVec 32

/-- A raw code, 11 bits unsigned (R137). -/
abbrev RawCode := BitVec 11

/-- A sample buffer: `N` = 14 whole elements, index 0 the strobe (R6, R21, R22, 90_conflicts.md C1). -/
abbrev Buffer := Vector Interval 14

end Sys2Proof
end

