-- ==== Sys2Proof/Syntax.lean ====
section
/-! DEFINITION. The nine operations of ZWD-OPS version 1 (00_scope.md R2, 30_encoding.md R81), one constructor per row of the opcode table,
with the operand fields of 30_encoding.md R82. -/

namespace Sys2Proof

inductive Instr where
  /-- `INIT s r f l`: reset and configure (45_host.md R190). -/
  | init (start0 rr : Bool) (f : BitVec 8) (l : BitVec 16)
  /-- `START` (45_host.md R192). -/
  | start
  /-- `STOP` (45_host.md R194). -/
  | stop
  /-- `RDTEMP` (45_host.md R196). -/
  | rdtemp
  /-- `RDERR` (45_host.md R198). -/
  | rderr
  /-- `EDGE v`: one interval measurement arrives (40_capture.md R100). -/
  | edge (v : Interval)
  /-- `LONGP`: the stop condition (40_capture.md R105). -/
  | longp
  /-- `HANDOFF`: the frame assembler serves the frame-complete signal (41_handoff.md R120). -/
  | handoff
  /-- `DECODE`: the decoder runs the pending decode request (42_decode.md R130). -/
  | decode
  deriving DecidableEq, Repr

end Sys2Proof
end

