-- ==== Sys2Proof/WellFormed.lean ====
section
/-! DEFINITION. The operand values an instruction may carry (30_encoding.md R82: the column "legal"). -/

namespace Sys2Proof

/-- `INIT` needs `f` in 1..255 and `l` in 1..65535 (R82, R191); every other operation is legal with every operand its fields can hold. -/
def Instr.wellFormed : Instr → Bool
  | .init _ _ f l => f != 0 && l != 0
  | .start => true
  | .stop => true
  | .rdtemp => true
  | .rderr => true
  | .edge _ => true
  | .longp => true
  | .handoff => true
  | .decode => true

end Sys2Proof
end

