-- ==== Sys2Proof/Decode.lean ====
section
/-! DEFINITION. The decoder of operation words (30_encoding.md R80 to R83, R86) and, after it, the encoder and the opcode table's match and
mask columns (spec/opcode_table.json). Decoding is total on all 2^36 words and refuses by name. -/

namespace Sys2Proof

/-- Why a word is refused (30_encoding.md R86). All are safe: the machine answers `REFUSED` and goes on. -/
inductive DecodeError where
  /-- Opcode 0x0, 0x6, 0x7 or 0xC..0xF (93_implementation_defined.md U4). -/
  | reservedOpcode
  /-- A format `Z` operation with `operand[31:0]` not 0 (U5). -/
  | nonzeroOperand
  /-- An `INIT` word with a reserved bit of `operand[29:24]` set (U5). -/
  | reservedInitBits
  /-- An `INIT` word with `f` = 0 (U5). -/
  | zeroWindow
  /-- An `INIT` word with `l` = 0 (U5). -/
  | zeroLimit
  deriving DecidableEq, Repr

/-- `op[35:32]` (R80). -/
def opcodeOf (w : OpWord) : BitVec 4 := w.extractLsb' 32 4

/-- `op[31:0]` (R80). -/
def operandOf (w : OpWord) : BitVec 32 := w.extractLsb' 0 32

/-- `operand[31]`: `START0` (R82, format `I`). -/
def fieldS (x : BitVec 32) : Bool := x.getLsbD 31

/-- `operand[30]`: `RR` (R82, format `I`). -/
def fieldR (x : BitVec 32) : Bool := x.getLsbD 30

/-- `operand[29:24]`: reserved, must be 0 (R82, format `I`). -/
def fieldReserved (x : BitVec 32) : BitVec 6 := x.extractLsb' 24 6

/-- `operand[23:16]`: `F` (R82, format `I`). -/
def fieldF (x : BitVec 32) : BitVec 8 := x.extractLsb' 16 8

/-- `operand[15:0]`: `LIMIT` (R82, format `I`). -/
def fieldL (x : BitVec 32) : BitVec 16 := x.extractLsb' 0 16

/-- Format `Z`: no operand, so `operand[31:0]` must be 0 (R82). -/
def decodeZ (i : Instr) (x : BitVec 32) : Except DecodeError Instr :=
  if x = 0 then .ok i else .error .nonzeroOperand

/-- Format `I` (R82, R83). -/
def decodeI (x : BitVec 32) : Except DecodeError Instr :=
  if fieldReserved x ≠ 0 then .error .reservedInitBits
  else if fieldF x = 0 then .error .zeroWindow
  else if fieldL x = 0 then .error .zeroLimit
  else .ok (.init (fieldS x) (fieldR x) (fieldF x) (fieldL x))

/-- R83: the instruction a word stands for, or why it is refused. -/
def decodeWord (w : OpWord) : Except DecodeError Instr :=
  match (opcodeOf w).toNat with
  | 0x1 => decodeI (operandOf w)
  | 0x2 => decodeZ .start (operandOf w)
  | 0x3 => decodeZ .stop (operandOf w)
  | 0x4 => decodeZ .rdtemp (operandOf w)
  | 0x5 => decodeZ .rderr (operandOf w)
  | 0x8 => .ok (.edge (operandOf w))
  | 0x9 => decodeZ .longp (operandOf w)
  | 0xA => decodeZ .handoff (operandOf w)
  | 0xB => decodeZ .decode (operandOf w)
  | _ => .error .reservedOpcode

/-- What the decoder reads from an instruction of `nbits` bits `w`, bit 0 the least significant bit of the one word (R80, R87): bits at and
above `nbits` are 0, and a number that does not fit the 36 bits of a word is none. Log 15. -/
def decodeTableWord (nbits w : Nat) : Option Instr :=
  if w % 2 ^ nbits < 2 ^ 36 then
    match decodeWord (BitVec.ofNat 36 (w % 2 ^ nbits)) with
    | .ok i => some i
    | .error _ => none
  else none

/-- `{opcode, operand}` (R80). -/
def opWord (opcode : BitVec 4) (operand : BitVec 32) : OpWord := opcode ++ operand

/-- The operand of format `I`: `{s, r, 0b000000, f, l}` (R82, R190). -/
def operandI (start0 rr : Bool) (f : BitVec 8) (l : BitVec 16) : BitVec 32 :=
  BitVec.ofBool start0 ++ BitVec.ofBool rr ++ 0#6 ++ f ++ l

/-- The word of an instruction (R81, R82). -/
def encode : Instr → OpWord
  | .init start0 rr f l => opWord 0x1 (operandI start0 rr f l)
  | .start => opWord 0x2 0
  | .stop => opWord 0x3 0
  | .rdtemp => opWord 0x4 0
  | .rderr => opWord 0x5 0
  | .edge v => opWord 0x8 v
  | .longp => opWord 0x9 0
  | .handoff => opWord 0xA 0
  | .decode => opWord 0xB 0

/-- The column "mask" of spec/opcode_table.json. -/
def tableMask : Instr → OpWord
  | .init _ _ _ _ => 0xF3F000000
  | .start => 0xFFFFFFFFF
  | .stop => 0xFFFFFFFFF
  | .rdtemp => 0xFFFFFFFFF
  | .rderr => 0xFFFFFFFFF
  | .edge _ => 0xF00000000
  | .longp => 0xFFFFFFFFF
  | .handoff => 0xFFFFFFFFF
  | .decode => 0xFFFFFFFFF

/-- The column "match" of spec/opcode_table.json. -/
def tableMatch : Instr → OpWord
  | .init _ _ _ _ => 0x100000000
  | .start => 0x200000000
  | .stop => 0x300000000
  | .rdtemp => 0x400000000
  | .rderr => 0x500000000
  | .edge _ => 0x800000000
  | .longp => 0x900000000
  | .handoff => 0xA00000000
  | .decode => 0xB00000000

end Sys2Proof
end

