-- ==== Sys2Proof/Config.lean ====
section
/-! DEFINITION. The fixed parameters of 00_scope.md R6 that are values, and the free values: what the spec leaves open (10_state.md R34,
20_memory.md R65, R67). A free value has no body, so no proof can rest on what it is. -/

namespace Sys2Proof

/-- `NEUTRAL`: the value of a window slot no reading has filled (R6, R160). -/
def Config.neutral : RawCode := 0

/-- The largest value of `errorcount`, at which it saturates (`CW` = 32 bits; 10_state.md R28). -/
def Config.errorcountMax : BitVec 32 := 0xFFFFFFFF

/-- FREE VALUE: the n-th interval of unspecified buffer contents. `INIT` leaves `active` and `snapshot` unspecified, "a model may take any
values" (10_state.md R34, 93_implementation_defined.md U2). Safe; log 3. -/
opaque Config.freeInterval : Nat → Interval

/-- FREE VALUE: the n-th scheduling choice, used when no turn is recorded and several agents can move: "any interleaving ... is allowed"
(20_memory.md R65, 93_implementation_defined.md U17). Safe; log 4. -/
opaque Config.freeChoice : Nat → Nat

/-- FREE VALUE: the n-th bound on how often the free choice may pass over an internal operation while it stays enabled. "No bound in time or in
number of intervening operations is given" (20_memory.md R67), so it is any number, but there is one: the operation "eventually occurs". Safe;
log 17. -/
opaque Config.freePatience : Nat → Nat

end Sys2Proof
end

