-- ==== Sys2Proof/Machine/State.lean ====
section
/-! DEFINITION. The state record of 10_state.md R20 as plain data, the response port of 30_encoding.md R84, the model's own six fields, the
reasons a step can stop, and the state right after reset. -/

namespace Sys2Proof.Machine

/-- States of the frame-boundary detector (10_state.md R25). -/
inductive CapState where
  | idle
  | capturing
  | complete
  deriving DecidableEq, Repr

/-- Kinds of a failure and of a hard fault (10_state.md R27, 44_fault.md R172). -/
inductive FaultKind where
  | wrongParity
  | lowRange
  | highRange
  deriving DecidableEq, Repr

/-- The escalation state (10_state.md R27). -/
inductive Fsm where
  | running
  | faulted (kind : FaultKind)
  deriving DecidableEq, Repr

/-- The statuses an operation can answer with (30_encoding.md R85); values 0x6..0xD are never produced, so they are no constructors (U7). -/
inductive Status where
  | ok
  | notRunning
  | wrongParity
  | lowRange
  | highRange
  | noReading
  | notEnabled
  | refused
  deriving DecidableEq, Repr

/-- An answer: `status` and `data` of a response word (30_encoding.md R84). -/
structure Response where
  status : Status
  data : BitVec 32
  deriving DecidableEq, Repr

/-- Who moves next (00_scope.md R10 item 1): the two agents outside the block (capture port and host), who present words alike (R240),
and the two inside it. -/
inductive Agent where
  | outside
  | frameAssembler
  | decoder
  deriving DecidableEq, Repr

/-- The record of 10_state.md R20, field by field in its order, then the response port, then the model's own six fields. -/
structure State where
  -- configuration (R20, R29)
  cfgF : BitVec 8
  cfgLIMIT : BitVec 16
  cfgRR : Bool
  -- capture view (R20, R25, R26)
  running : Bool
  capState : CapState
  wpos : Fin 14 -- wpos and the two lengths: log 9
  active : Buffer
  sealedLen : Fin 15
  -- hand-off (R20, R69)
  snapshot : Buffer
  snapLen : Fin 15
  pending : Bool
  -- decode view (R20, R27, R28)
  window : List RawCode -- of length cfgF: log 11
  head : BitVec 8
  consecutive : BitVec 16
  errorcount : BitVec 32
  seenValid : Bool
  fsm : Fsm
  -- the response port (R84): the last answer (log 5)
  response : Response
  -- the model's own: has an INIT been accepted yet (R260; log 6)
  initialised : Bool
  -- the model's own: words presented and not yet performed, oldest first, and the recorded order of moves (R65, R80; log 4)
  inputs : List OpWord
  turns : List Agent
  -- the model's own: how often each internal operation, enabled and passed over, may still be passed over; none: it was not (R67; log 17)
  handoffWait : Option Nat
  decodeWait : Option Nat
  -- the model's own: how many free values have been drawn (logs 3, 4 and 17)
  freeDraws : Nat
  deriving DecidableEq, Repr

/-- Reasons a step faults: none. "There is no behaviour in this spec that a model must treat as `fault` in the sense of trapping, and none as
`stuck`" (93_implementation_defined.md, end of part 1). A hard fault is a value of `fsm` and the machine goes on (60_exceptions.md R231).
Log 16. -/
inductive Fault where
  deriving DecidableEq, Repr

/-- Reasons a step is given no meaning. -/
inductive Refusal where
  /-- Raised by an arm of `exec` that has no meaning yet (no arm is left); safe. -/
  | notModelled (mnemonic : String)
  /-- Raised by every operation but a legal `INIT`, and by a refused word, before the first accepted `INIT`: the state has no value then, and a
  model "gives a run that begins with another word no meaning (it refuses it)" (70_reset_and_hazards.md R260, U1). Safe; log 6. -/
  | beforeInit
  deriving DecidableEq, Repr

/-- The machine right after reset: the table of 10_state.md R34 for the word `INIT s=1 r=0 f=3 l=3` (45_host.md R190's example; log 1). The
contents of `active` and `snapshot`, which R34 leaves unspecified, are zeros here (log 2). Nothing is presented and no move is recorded. -/
def State.reset : State where
  cfgF := 3
  cfgLIMIT := 3
  cfgRR := false
  running := true
  capState := .idle
  wpos := 0
  active := Vector.replicate 14 0
  sealedLen := 0
  snapshot := Vector.replicate 14 0
  snapLen := 0
  pending := false
  window := [Config.neutral, Config.neutral, Config.neutral]
  head := 0
  consecutive := 0
  errorcount := 0
  seenValid := false
  fsm := .running
  response := ⟨.ok, 0⟩
  initialised := true
  inputs := []
  turns := []
  handoffWait := none
  decodeWait := none
  freeDraws := 0

end Sys2Proof.Machine
end

