-- ==== Sys2Proof/Machine/Operands.lean ====
section
/-! DEFINITION. Operand forms of the data path: whole-element access to the three buffers (20_memory.md R60, R63), the free contents of a
buffer, the thirteen bits of a frame (30_encoding.md R88, 42_decode.md R132) and the encoding of a code as a frame (30_encoding.md R89). -/

namespace Sys2Proof.Machine

/-- `active[i] <- v` (20_memory.md R60, R63). -/
def writeActive (i : Fin 14) (v : Interval) (s : State) : State :=
  { s with active := s.active.set i.val v i.isLt }

/-- `for i in 0..13: snapshot[i] <- active[i]`, the copy "in full" whatever `sealed_len` is (20_memory.md R63, 41_handoff.md R120). -/
def copyActive (s : State) : State :=
  { s with snapshot := s.active }

/-- Fourteen free intervals, drawn from the `n`-th on: a buffer whose contents are unspecified (10_state.md R34). -/
def freeBuffer (n : Nat) : Buffer :=
  Vector.ofFn fun i : Fin 14 => Config.freeInterval (n + i.val)

/-- `active[0..13]` and `snapshot[0..13]` become unspecified (45_host.md R190, 10_state.md R34): 28 free values. -/
def freeBuffers (s : State) : State :=
  { s with
    active := freeBuffer s.freeDraws
    snapshot := freeBuffer (s.freeDraws + 14)
    freeDraws := s.freeDraws + 28 }

/-- The bit sequence `b[1..13]` by the names of its positions (30_encoding.md R88): `d7` is `b[1]`, `pl` is `b[9]`, `d10` is `b[10]`, `ph` is
`b[13]`. The strobe has no entry (42_decode.md R132). -/
structure BitSeq where
  d7 : Bool
  d6 : Bool
  d5 : Bool
  d4 : Bool
  d3 : Bool
  d2 : Bool
  d1 : Bool
  d0 : Bool
  pl : Bool
  d10 : Bool
  d9 : Bool
  d8 : Bool
  ph : Bool
  deriving DecidableEq, Repr

/-- `b[i]`: 1 exactly when sample `i` is below the strobe, unsigned; a sample equal to the strobe gives 0 (42_decode.md R132, R133). -/
def sampleBit (snap : Buffer) (i : Fin 14) : Bool :=
  decide (snap[i] < snap[0])

/-- The thirteen comparisons of 42_decode.md R132 at the positions of 30_encoding.md R88. -/
def frameBits (snap : Buffer) : BitSeq where
  d7 := sampleBit snap 1
  d6 := sampleBit snap 2
  d5 := sampleBit snap 3
  d4 := sampleBit snap 4
  d3 := sampleBit snap 5
  d2 := sampleBit snap 6
  d1 := sampleBit snap 7
  d0 := sampleBit snap 8
  pl := sampleBit snap 9
  d10 := sampleBit snap 10
  d9 := sampleBit snap 11
  d8 := sampleBit snap 12
  ph := sampleBit snap 13

/-- `code = {b[10], b[11], b[12], b[1], ..., b[8]}` (42_decode.md R137). -/
def codeOf (b : BitSeq) : RawCode :=
  BitVec.ofBoolListBE [b.d10, b.d9, b.d8, b.d7, b.d6, b.d5, b.d4, b.d3, b.d2, b.d1, b.d0]

/-- The bits of a frame that carries the code `c`, with both parity bits even (30_encoding.md R89). -/
def bitsOfCode (c : RawCode) : BitSeq where
  d7 := c.getLsbD 7
  d6 := c.getLsbD 6
  d5 := c.getLsbD 5
  d4 := c.getLsbD 4
  d3 := c.getLsbD 3
  d2 := c.getLsbD 2
  d1 := c.getLsbD 1
  d0 := c.getLsbD 0
  pl := c.getLsbD 7 ^^ c.getLsbD 6 ^^ c.getLsbD 5 ^^ c.getLsbD 4 ^^ c.getLsbD 3 ^^ c.getLsbD 2 ^^ c.getLsbD 1 ^^ c.getLsbD 0
  d10 := c.getLsbD 10
  d9 := c.getLsbD 9
  d8 := c.getLsbD 8
  ph := c.getLsbD 10 ^^ c.getLsbD 9 ^^ c.getLsbD 8

/-- The sample of one bit: `lo` for a one, `hi` for a zero (30_encoding.md R89). -/
def sampleOf (lo hi : Interval) (b : Bool) : Interval :=
  if b then lo else hi

/-- The fourteen samples of a frame with the bits `b` (30_encoding.md R89, R91 `BITS`): the strobe `theta`, then one sample a bit. -/
def samplesOfBits (theta lo hi : Interval) (b : BitSeq) : Buffer :=
  #v[theta, sampleOf lo hi b.d7, sampleOf lo hi b.d6, sampleOf lo hi b.d5, sampleOf lo hi b.d4, sampleOf lo hi b.d3, sampleOf lo hi b.d2,
    sampleOf lo hi b.d1, sampleOf lo hi b.d0, sampleOf lo hi b.pl, sampleOf lo hi b.d10, sampleOf lo hi b.d9, sampleOf lo hi b.d8,
    sampleOf lo hi b.ph]

end Sys2Proof.Machine
end

