-- ==== Sys2Proof/Machine/Flags.lean ====
section
/-! DEFINITION. Flags and verdicts: the guards of the internal operations (20_memory.md R66), the parity verdicts (42_decode.md R134 to R136),
the verdict on a snapshot (R131, R138), the saturating counter (10_state.md R28), the classification (R30), and the numbers of the status
codes and the response word (30_encoding.md R84, R85). -/

namespace Sys2Proof.Machine

/-- The guard of `HANDOFF` (20_memory.md R66); before the first `INIT` the state has no value (R260), so nothing is enabled. -/
def handoffEnabled (s : State) : Bool :=
  s.initialised && decide (s.capState = .complete)

/-- The guard of `DECODE` (20_memory.md R66), likewise. -/
def decodeEnabled (s : State) : Bool :=
  s.initialised && s.pending

/-- `pl_ok`: the exclusive-or of the eight low data bits is `PL` (42_decode.md R134). -/
def lowParityOk (b : BitSeq) : Bool :=
  (b.d7 ^^ b.d6 ^^ b.d5 ^^ b.d4 ^^ b.d3 ^^ b.d2 ^^ b.d1 ^^ b.d0) == b.pl

/-- `ph_ok`: the exclusive-or of the three high data bits is `PH` (42_decode.md R135). -/
def highParityOk (b : BitSeq) : Bool :=
  (b.d10 ^^ b.d9 ^^ b.d8) == b.ph

/-- How a decode in `fsm = RUNNING` ends: `success(code)` or `fail(kind)` (42_decode.md R130). -/
inductive Verdict where
  | success (code : RawCode)
  | failure (kind : FaultKind)
  deriving DecidableEq, Repr

/-- The range sentinels, after the parity check (42_decode.md R138). -/
def rangeVerdict (code : RawCode) : Verdict :=
  if code = 0 then .failure .lowRange
  else if code = 2047 then .failure .highRange
  else .success code

/-- Parity first, "no partial acceptance" (42_decode.md R136), then the range (R138). -/
def bitsVerdict (b : BitSeq) : Verdict :=
  if lowParityOk b && highParityOk b then rangeVerdict (codeOf b) else .failure .wrongParity

/-- A snapshot shorter than 14 fails safely, no element of it read (42_decode.md R131); a full one is judged by its bits. -/
def snapshotVerdict (len : Fin 15) (snap : Buffer) : Verdict :=
  if len.val < 14 then .failure .wrongParity else bitsVerdict (frameBits snap)

/-- `errorcount` saturates (10_state.md R28, 44_fault.md R172). -/
def saturatingIncrement (c : BitVec 32) : BitVec 32 :=
  if c = Config.errorcountMax then c else c + 1

/-- The five-valued classification of 10_state.md R30, a function of the state and not kept. -/
inductive Classification where
  | none
  | fault (kind : FaultKind)
  | notRunning
  deriving DecidableEq, Repr

/-- 10_state.md R30. -/
def classification (s : State) : Classification :=
  if s.running then
    match s.fsm with
    | .faulted k => .fault k
    | .running => .none
  else .notRunning

/-- The status under which a hard fault of a kind is reported (30_encoding.md R85). -/
def kindStatus : FaultKind → Status
  | .wrongParity => .wrongParity
  | .lowRange => .lowRange
  | .highRange => .highRange

/-- The status codes of 30_encoding.md R85. -/
def statusCode : Status → BitVec 4
  | .ok => 0x0
  | .notRunning => 0x1
  | .wrongParity => 0x2
  | .lowRange => 0x3
  | .highRange => 0x4
  | .noReading => 0x5
  | .notEnabled => 0xE
  | .refused => 0xF

/-- The response word `{status, data}` (30_encoding.md R84). -/
def responseWord (r : Response) : RspWord := statusCode r.status ++ r.data

end Sys2Proof.Machine
end

