-- ==== Sys2Proof/Machine/Ops.lean ====
section
/-! DEFINITION. The named procedures of the spec, each once (00_scope.md R8): answering (R84), sealing and overrun (40_capture.md R103, R104),
the window (43_filter.md R161, R162) and the temperature map (R165), the escalation (44_fault.md R171, R172), entry into the hard fault (R174)
and the return from it (45_host.md R193). -/

namespace Sys2Proof.Machine

/-- `respond(status, data)` (30_encoding.md R84): the answer stands at the port until the next one (log 5). -/
def respond (status : Status) (data : BitVec 32) (s : State) : State :=
  { s with response := ⟨status, data⟩ }

/-- `respond(OK, 0)`. -/
def acknowledge (s : State) : State := respond .ok 0 s

/-- An operation that takes `s` to `t`, in a machine that has been initialised; before the first accepted `INIT` it has no meaning
(70_reset_and_hazards.md R260; log 6). -/
def afterInit (s t : State) : Host.Outcome State Fault Refusal :=
  if s.initialised then .next t else .refused .beforeInit

/-- A refused word "changes no state and answers `respond(REFUSED, 0)`" (30_encoding.md R86). -/
def refuseWord (s : State) : Host.Outcome State Fault Refusal :=
  afterInit s (respond .refused 0 s)

/-! ### Capture -/

/-- `seal(n)` (40_capture.md R103): entering `COMPLETE` is the frame-complete signal. -/
def sealFrame (n : Fin 15) (s : State) : State :=
  { s with sealedLen := n, wpos := 0, capState := .complete }

/-- `overrun()` (40_capture.md R104): an empty frame now waits for `HANDOFF`. -/
def captureOverrun (s : State) : State :=
  { s with sealedLen := 0, wpos := 0, capState := .complete }

/-- The detector at rest: `cap_state <- IDLE; wpos <- 0; sealed_len <- 0` (45_host.md R190, R192, R194, 41_handoff.md R120). -/
def detectorIdle (s : State) : State :=
  { s with capState := .idle, wpos := 0, sealedLen := 0 }

/-! ### The window -/

/-- `push(code)` (43_filter.md R161): write at `head`, then advance `head` modulo `F`. -/
def pushCode (code : RawCode) (s : State) : State :=
  { s with
    window := s.window.set s.head.toNat code
    head := BitVec.ofNat 8 ((s.head.toNat + 1) % s.cfgF.toNat) }

/-- The element of index `F // 2` of the values in ascending order (43_filter.md R162). In a state that meets the invariant the index is one of
the list's (log 11). -/
def medianOf (F : Nat) (values : List RawCode) : RawCode :=
  (values.insertionSort (· ≤ ·)).getD (F / 2) Config.neutral

/-- `median()` (43_filter.md R162), over all `F` slots, neutral ones included (R163). -/
def medianCode (s : State) : RawCode := medianOf s.cfgF.toNat s.window

/-- `window[i] <- NEUTRAL` for `i` in 0..F-1, `head <- 0` (45_host.md R190, R193). -/
def clearWindow (s : State) : State :=
  { s with window := List.replicate s.cfgF.toNat Config.neutral, head := 0 }

/-- `T(c)` in degrees Celsius, an exact rational (43_filter.md R165, R166; log 13). -/
def temperature (c : RawCode) : Rat := 70 * (c.toNat : Rat) / 2047 - 10

/-! ### Escalation -/

/-- `raise HardFault(kind)`, the one exception entry (44_fault.md R174, 60_exceptions.md R230): the kind is all it saves, and control goes
nowhere. -/
def raiseHardFault (kind : FaultKind) (s : State) : State :=
  { s with fsm := .faulted kind }

/-- `restart_reset()` (45_host.md R193), the return from a hard fault without a reset (60_exceptions.md R233): it restores nothing. -/
def restartReset (s : State) : State :=
  { clearWindow s with consecutive := 0, fsm := .running }

/-- The two counter increments of every failed decode (44_fault.md R172; log 14). -/
def countFailure (s : State) : State :=
  { s with errorcount := saturatingIncrement s.errorcount, consecutive := s.consecutive + 1 }

/-- `fail(kind)` (44_fault.md R172): the comparison sees the incremented counter; the window is not touched. -/
def decodeFails (kind : FaultKind) (s : State) : State :=
  if (countFailure s).cfgLIMIT ≤ (countFailure s).consecutive then raiseHardFault kind (countFailure s) else countFailure s

/-- `success(code)` (44_fault.md R171). -/
def decodeSucceeds (code : RawCode) (s : State) : State :=
  { pushCode code s with consecutive := 0, seenValid := true }

/-- A decode in `fsm = RUNNING` ends in one of its two ways (42_decode.md R130). -/
def applyVerdict (v : Verdict) (s : State) : State :=
  match v with
  | .success code => decodeSucceeds code s
  | .failure kind => decodeFails kind s

end Sys2Proof.Machine
end

