-- ==== Sys2Proof/Machine/Capture.lean ====
section
/-! DEFINITION. The capture operations `EDGE` and `LONGP` (40_capture.md R100 to R106). -/

namespace Sys2Proof.Machine

/-- A sample arrives while capture is enabled, by the state of the detector (40_capture.md R100, R102). -/
def captureSample (v : Interval) (s : State) : State :=
  match s.capState with
  | .idle => { writeActive 0 v s with wpos := 1, capState := .capturing }
  | .capturing =>
    if s.wpos = 13 then sealFrame 14 (writeActive s.wpos v s)
    else { writeActive s.wpos v s with wpos := s.wpos + 1 }
  | .complete =>
    if s.wpos = 13 then captureOverrun (writeActive s.wpos v s)
    else { writeActive s.wpos v s with wpos := s.wpos + 1 }

/-- The stop condition while capture is enabled, by the state of the detector (40_capture.md R105). -/
def captureLongPulse (s : State) : State :=
  match s.capState with
  | .idle => s
  | .capturing => sealFrame s.wpos.castSucc s
  | .complete => if s.wpos = 0 then s else captureOverrun s

/-- `EDGE v` (40_capture.md R100); while stopped it changes nothing (R101). -/
def execEdge (v : Interval) (s : State) : Host.Outcome State Fault Refusal :=
  afterInit s (acknowledge (if s.running then captureSample v s else s))

/-- `LONGP` (40_capture.md R105); while stopped it changes nothing (R101). -/
def execLongp (s : State) : Host.Outcome State Fault Refusal :=
  afterInit s (acknowledge (if s.running then captureLongPulse s else s))

end Sys2Proof.Machine
end

