-- ==== Sys2Proof/Machine/Decoder.lean ====
section
/-! DEFINITION. The decoder's operation `DECODE` (42_decode.md R130 to R142). -/

namespace Sys2Proof.Machine

/-- The request is consumed; in `FAULTED` nothing else happens (42_decode.md R140), in `RUNNING` the snapshot is judged. `running` is not read
(R141). -/
def consumeRequest (s : State) : State :=
  match s.fsm with
  | .faulted _ => { s with pending := false }
  | .running => applyVerdict (snapshotVerdict s.snapLen s.snapshot) { s with pending := false }

/-- `DECODE` (42_decode.md R130): the answer is `OK` whether the decode succeeded or failed; outside its guard it is `NOT_ENABLED`. -/
def execDecode (s : State) : Host.Outcome State Fault Refusal :=
  afterInit s (if s.pending then acknowledge (consumeRequest s) else respond .notEnabled 0 s)

end Sys2Proof.Machine
end

