-- ==== Sys2Proof/Machine/Handoff.lean ====
section
/-! DEFINITION. The frame assembler's operation `HANDOFF` (41_handoff.md R120 to R124). -/

namespace Sys2Proof.Machine

/-- The hand-off itself: the copy in full, the length, the detector at rest, the request (41_handoff.md R120); `pending` is not looked at
(R122) and the cursor is reset here too (R123). -/
def handOver (s : State) : State :=
  detectorIdle { copyActive s with snapLen := s.sealedLen, pending := true }

/-- `HANDOFF` (41_handoff.md R120); outside its guard it answers `NOT_ENABLED` and changes nothing (R121). -/
def execHandoff (s : State) : Host.Outcome State Fault Refusal :=
  afterInit s (if s.capState = .complete then acknowledge (handOver s) else respond .notEnabled 0 s)

end Sys2Proof.Machine
end

