-- ==== Sys2Proof/Machine/HostOps.lean ====
section
/-! DEFINITION. The host operations `INIT`, `START`, `STOP`, `RDTEMP`, `RDERR` (45_host.md R190 to R199). -/

namespace Sys2Proof.Machine

/-- Every field of the spec's state after `INIT` (45_host.md R190, 10_state.md R34): the configuration, the detector and the hand-off at rest,
the decode view cleared, the buffers unspecified. The words presented after it and the recorded order of moves stay
(log 12). -/
def resetState (start0 rr : Bool) (f : BitVec 8) (l : BitVec 16) (s : State) : State :=
  freeBuffers
    { restartReset (detectorIdle { s with cfgF := f, cfgLIMIT := l, cfgRR := rr, running := start0 }) with
      snapLen := 0
      pending := false
      errorcount := 0
      seenValid := false
      initialised := true }

/-- `INIT` (45_host.md R190), accepted in any state, also before the first one (70_reset_and_hazards.md R260). With `f` = 0 or `l` = 0 it is
refused and changes nothing (45_host.md R191; the decoder already refuses such words, log 10). -/
def execInit (start0 rr : Bool) (f : BitVec 8) (l : BitVec 16) (s : State) : Host.Outcome State Fault Refusal :=
  if f = 0 ∨ l = 0 then refuseWord s else .next (acknowledge (resetState start0 rr f l s))

/-- `START` (45_host.md R192): while running nothing changes, whatever `RR` is; from stopped the detector resumes at rest, and with `RR` = 1
`restart_reset` follows (R193). -/
def execStart (s : State) : Host.Outcome State Fault Refusal :=
  afterInit s (acknowledge
    (if s.running then s
    else if s.cfgRR then restartReset (detectorIdle { s with running := true })
    else detectorIdle { s with running := true }))

/-- `STOP` (45_host.md R194): a frame in progress or sealed but undrained is dropped; a pending request stays. -/
def execStop (s : State) : Host.Outcome State Fault Refusal :=
  afterInit s (acknowledge (if s.running then detectorIdle { s with running := false } else s))

/-- `RDTEMP` (45_host.md R196), in the priority of R197. -/
def execRdtemp (s : State) : Host.Outcome State Fault Refusal :=
  afterInit s
    (if s.running then
      match s.fsm with
      | .faulted kind => respond (kindStatus kind) 0 s
      | .running => respond .ok ((medianCode s).setWidth 32) s
    else respond .notRunning 0 s)

/-- `RDERR` (45_host.md R198); `running` and `fsm` are not read. -/
def execRderr (s : State) : Host.Outcome State Fault Refusal :=
  afterInit s (if s.seenValid then respond .ok s.errorcount s else respond .noReading 0 s)

end Sys2Proof.Machine
end

