-- ==== Sys2Proof/Machine/Dispatch.lean ====
section
/-! DEFINITION. One arm per operation of ZWD-OPS version 1 (30_encoding.md R81). -/

namespace Sys2Proof.Machine

def exec (i : Instr) (s : State) : Host.Outcome State Fault Refusal :=
  match i with
  | .init start0 rr f l => Sys2Proof.Machine.execInit start0 rr f l s
  | .start => Sys2Proof.Machine.execStart s
  | .stop => Sys2Proof.Machine.execStop s
  | .rdtemp => Sys2Proof.Machine.execRdtemp s
  | .rderr => Sys2Proof.Machine.execRderr s
  | .edge v => Sys2Proof.Machine.execEdge v s
  | .longp => Sys2Proof.Machine.execLongp s
  | .handoff => Sys2Proof.Machine.execHandoff s
  | .decode => Sys2Proof.Machine.execDecode s

end Sys2Proof.Machine
end

