-- ==== Sys2Proof/Machine/Perform.lean ====
section
/-! DEFINITION. Performing one operation word: decode, then the instruction, or the answer `REFUSED` (30_encoding.md R83, R86). "A reserved
opcode or malformed operand is refused before any state is read" (60_exceptions.md R226). -/

namespace Sys2Proof.Machine

def performWord (w : OpWord) (s : State) : Host.Outcome State Fault Refusal :=
  match decodeWord w with
  | .ok i => exec i s
  | .error _ => refuseWord s

end Sys2Proof.Machine
end

