-- ==== Sys2Proof/Machine/Schedule.lean ====
section
/-! DEFINITION. Which operation comes next: executions are interleavings of presented words and internal operations (20_memory.md R65, R66).
The order is data of the state while `turns` lasts; beyond it, a free choice among the agents that can move (log 4), in which an
internal operation that stays enabled is passed over only finitely often (R67; log 17). Every operation comes as
its operation word (30_encoding.md R80: internal operations "have opcodes so that a trace ... can write down the moment they occur"). -/

namespace Sys2Proof.Machine

/-- An agent can move: a word is presented, or the guard of its internal operation holds (20_memory.md R66). -/
def agentReady (s : State) : Agent → Bool
  | .outside => !s.inputs.isEmpty
  | .frameAssembler => handoffEnabled s
  | .decoder => decodeEnabled s

/-- The agents that can move; there is no priority between them (20_memory.md R65, 60_exceptions.md R224). -/
def readyAgents (s : State) : List Agent :=
  [Agent.outside, Agent.frameAssembler, Agent.decoder].filter (agentReady s)

/-- The word an agent's move performs, and the state it is performed in: the outside presents the oldest waiting word; the hardware performs an
internal operation only when its guard holds (41_handoff.md R121). -/
def agentWord (a : Agent) (s : State) : Option OpWord × State :=
  match a with
  | .outside =>
    match s.inputs with
    | [] => (none, s)
    | w :: ws => (some w, { s with inputs := ws })
  | .frameAssembler => if handoffEnabled s then (some (encode .handoff), s) else (none, s)
  | .decoder => if decodeEnabled s then (some (encode .decode), s) else (none, s)

/-- The agent that moves when several are ready and no turn is recorded: any of them (20_memory.md R65; log 4). -/
def freeAgent (ready : List Agent) (n : Nat) : Agent :=
  match ready with
  | [a] => a
  | _ => ready.getD (Config.freeChoice n % ready.length) .outside

/-- How often the free choice may still pass over an enabled `HANDOFF`: what is left, or a fresh free value (20_memory.md R67; log 17). -/
def handoffPatience (s : State) : Nat := s.handoffWait.getD (Config.freePatience s.freeDraws)

/-- The same of an enabled `DECODE`. -/
def decodePatience (s : State) : Nat := s.decodeWait.getD (Config.freePatience (s.freeDraws + 1))

/-- An internal operation is enabled and may be passed over no longer (20_memory.md R67; log 17). -/
def overdue (s : State) : Agent → Bool
  | .outside => false
  | .frameAssembler => handoffEnabled s && decide (handoffPatience s = 0)
  | .decoder => decodeEnabled s && decide (decodePatience s = 0)

/-- The agents the free choice is among: those whose operation is overdue, if there are any, else all that can move. -/
def candidates (s : State) : List Agent :=
  match (readyAgents s).filter (overdue s) with
  | [] => readyAgents s
  | late => late

/-- The agent that moves next, if any does. -/
def nextAgent (s : State) : Option Agent :=
  match s.turns with
  | a :: _ => some a
  | [] =>
    match readyAgents s with
    | [] => none
    | [a] => some a
    | _ => some (freeAgent (candidates s) s.freeDraws)

/-- `a` moves by free choice: an enabled internal operation that is not `a`'s has been passed over once more, and one that is not enabled, or moves
now, has been passed over no time (20_memory.md R67, "that stays enabled"; log 17). -/
def passOver (a : Agent) (s : State) : State :=
  { s with
    handoffWait := if handoffEnabled s = true ∧ a ≠ .frameAssembler then some (handoffPatience s - 1) else none
    decodeWait := if decodeEnabled s = true ∧ a ≠ .decoder then some (decodePatience s - 1) else none
    freeDraws := s.freeDraws + 2 }

/-- The turn of `a` is taken: the recorded turn it is goes, or what the free choice passes over is kept count of. -/
def takeTurn (a : Agent) (s : State) : State :=
  match s.turns with
  | _ :: rest => { s with turns := rest }
  | [] => passOver a s

/-- The next operation word, if any agent moves. -/
def fetchOp (s : State) : Option OpWord × State :=
  match nextAgent s with
  | some a => agentWord a (takeTurn a s)
  | none => (none, s)

/-- A word placed where the next step takes it from: at the head of the presented words, the next turn the outside's (log 4). -/
def presentNext (w : OpWord) (s : State) : State :=
  { s with inputs := w :: s.inputs, turns := .outside :: s.turns }

end Sys2Proof.Machine
end

