-- ==== Sys2Proof/Machine/Step.lean ====
section
/-! DEFINITION. One step: one atomic operation (20_memory.md R64; log 8), or nothing when no agent moves. -/

namespace Sys2Proof.Machine

def step (s : State) : Host.Outcome State Fault Refusal :=
  match fetchOp s with
  | (some w, t) => performWord w t
  | (none, t) => .next t

/-- `s` with the word `w` of `nbits` bits as the one the next step performs (logs 4 and 15). -/
def State.withFetchWord (s : State) (nbits w : Nat) : State :=
  presentNext (BitVec.ofNat 36 (w % 2 ^ nbits)) s

end Sys2Proof.Machine
end

