-- ==== Sys2Proof/Machine/Assembler.lean ====
section
/-! DEFINITION. The assembler lines and pseudo-operations of the spec (30_encoding.md R80, R90, R91). They expand to operation words and have no
opcode of their own; the hardware never sees them. -/

namespace Sys2Proof.Machine

/-- `RUN`: `HANDOFF` then `DECODE` (R91). -/
def expandRun : List Instr := [.handoff, .decode]

/-- `BITS`: fourteen `EDGE` words, the strobe and one for each digit (R91). It requires `lo < theta <= hi`. -/
def expandBits (theta lo hi : Interval) (b : BitSeq) : List Instr :=
  (samplesOfBits theta lo hi b).toList.map .edge

/-- `FRAME c`: `BITS` of the thirteen digits of the code (R89, R91). -/
def expandFrame (theta lo hi : Interval) (c : RawCode) : List Instr :=
  expandBits theta lo hi (bitsOfCode c)

/-- `FRAMERUN c`: `FRAME c`, then `RUN` (R91). -/
def expandFrameRun (theta lo hi : Interval) (c : RawCode) : List Instr :=
  expandFrame theta lo hi c ++ expandRun

/-- The digit of a bit field in an assembler line. -/
def bitDigit (b : Bool) : String := if b then "1" else "0"

/-- One line for one operation: the mnemonic, then the operand (R90). -/
def assemblerLine : Instr → String
  | .init start0 rr f l =>
    "INIT s=" ++ bitDigit start0 ++ " r=" ++ bitDigit rr ++ " f=" ++ toString f.toNat ++ " l=" ++ toString l.toNat
  | .start => "START"
  | .stop => "STOP"
  | .rdtemp => "RDTEMP"
  | .rderr => "RDERR"
  | .edge v => "EDGE " ++ toString v.toNat
  | .longp => "LONGP"
  | .handoff => "HANDOFF"
  | .decode => "DECODE"

/-- The nine hexadecimal digits a word is written as, the first being the opcode (R80). -/
def hexDigits (w : OpWord) : List (BitVec 4) :=
  (List.range 9).map fun k => w.extractLsb' (4 * (8 - k)) 4

end Sys2Proof.Machine
end

