-- ==== Sys2Proof/Machine/Execution.lean ====
section
/-! DEFINITION. Executions in which the outside world goes on for ever: what it adds between two steps, the sequence of states, and weak fairness
(20_memory.md R65, R67, 70_reset_and_hazards.md R281: "the only temporal assumption is the weak fairness"). -/

namespace Sys2Proof.Machine

/-- What arrives between two steps: words the capture port and the host present, and moves that are recorded of the schedule, each behind those
that wait already. -/
def offer (words : List OpWord) (moves : List Agent) (s : State) : State :=
  { s with inputs := s.inputs ++ words, turns := s.turns ++ moves }

/-- The state the `n`-th step begins in. -/
def stepBegin (words : Nat → List OpWord) (moves : Nat → List Agent) (states : Nat → State) (n : Nat) : State :=
  offer (words n) (moves n) (states n)

/-- An unending execution (20_memory.md R65): before the `n`-th step `words n` and `moves n` arrive, and every step goes on. -/
def IsExecution (words : Nat → List OpWord) (moves : Nat → List Agent) (states : Nat → State) : Prop :=
  ∀ n, step (stepBegin words moves states n) = .next (states (n + 1))

/-- Weak fairness (20_memory.md R67): "An internal operation that stays enabled eventually occurs". If the guard of an internal agent's operation
holds at the beginning of every step from the `n`-th on, the agent moves in one of them. -/
def WeaklyFair (words : Nat → List OpWord) (moves : Nat → List Agent) (states : Nat → State) : Prop :=
  ∀ a : Agent, a ≠ .outside → ∀ n,
    (∀ m, n ≤ m → agentReady (stepBegin words moves states m) a = true) →
      ∃ m, n ≤ m ∧ nextAgent (stepBegin words moves states m) = some a

end Sys2Proof.Machine
end

