-- ==== Sys2Proof/Safety.lean ====
section
/-! DEFINITION. What counts as a safe run, in the terms the statements use: the invariant of 10_state.md R32, runs of steps and of instructions,
and the relations between states that the statements compare. -/

namespace Sys2Proof.Machine

/-- The instruction is an `INIT`, legal or not. -/
def isInit : Instr → Bool
  | .init _ _ _ _ => true
  | .start => false
  | .stop => false
  | .rdtemp => false
  | .rderr => false
  | .edge _ => false
  | .longp => false
  | .handoff => false
  | .decode => false

/-- The instruction is a `START` that takes `running` from 0 to 1 with `RR` = 1: the one that performs `restart_reset` (45_host.md R193). -/
def restarts (i : Instr) (s : State) : Bool :=
  decide (i = .start) && !s.running && s.cfgRR

/-- 10_state.md R32, with the ranges R20 gives that the types do not already hold (`wpos <= 13`, `sealed_len <= 14` and `snap_len <= 14` are
ranges of the types, so items 3 and 5 have no clause; item 10 is about two states and stands in a statement of its own). -/
structure State.Inv (s : State) : Prop where
  initialised : s.initialised = true
  windowNonempty : s.cfgF ≠ 0
  limitPositive : s.cfgLIMIT ≠ 0
  windowLength : s.window.length = s.cfgF.toNat
  idleCursor : s.capState = .idle → s.wpos = 0 ∧ s.sealedLen = 0
  capturingCursor : s.capState = .capturing → s.wpos ≠ 0 ∧ s.sealedLen = 0
  stoppedIdle : s.running = false → s.capState = .idle
  headInWindow : s.head < s.cfgF
  windowCodes : ∀ c ∈ s.window, c ≠ 2047
  unseenNeutral : s.seenValid = false → ∀ c ∈ s.window, c = Config.neutral
  belowLimit : s.fsm = .running → s.consecutive < s.cfgLIMIT
  atLimit : ∀ k, s.fsm = .faulted k → s.consecutive = s.cfgLIMIT

/-- The point between two external operations of the eager schedule: `pending` = 0 and `cap_state` is not `COMPLETE`
(70_reset_and_hazards.md R276). -/
def State.EagerPoint (s : State) : Prop := s.pending = false ∧ s.capState ≠ .complete

/-- `n` steps, stopping at the first that has no meaning. -/
def runSteps : Nat → State → Host.Outcome State Fault Refusal
  | 0, s => .next s
  | n + 1, s =>
    match step s with
    | .next t => runSteps n t
    | .fault f => .fault f
    | .refused r => .refused r

/-- An instruction sequence performed one operation after another, stopping at the first that has no meaning. -/
def execAll : List Instr → State → Host.Outcome State Fault Refusal
  | [], s => .next s
  | i :: is, s =>
    match exec i s with
    | .next t => execAll is t
    | .fault f => .fault f
    | .refused r => .refused r

/-- The capture view of 10_state.md R20 less `running`, which the host owns (R31), agrees. -/
def SameCaptureView (s t : State) : Prop :=
  t.capState = s.capState ∧ t.wpos = s.wpos ∧ t.sealedLen = s.sealedLen ∧ t.active = s.active

/-- The decode view of 10_state.md R20 agrees. -/
def SameDecodeView (s t : State) : Prop :=
  t.window = s.window ∧ t.head = s.head ∧ t.consecutive = s.consecutive ∧ t.errorcount = s.errorcount ∧ t.seenValid = s.seenValid ∧
    t.fsm = s.fsm

/-- The hand-off fields of 10_state.md R20 agree. -/
def SameHandoff (s t : State) : Prop :=
  t.snapshot = s.snapshot ∧ t.snapLen = s.snapLen ∧ t.pending = s.pending

/-- The configuration of 10_state.md R20 agrees. -/
def SameConfig (s t : State) : Prop :=
  t.cfgF = s.cfgF ∧ t.cfgLIMIT = s.cfgLIMIT ∧ t.cfgRR = s.cfgRR

/-- The model's own fields, which no operation of an initialised machine touches but `INIT` (`freeDraws`). -/
def SamePorts (s t : State) : Prop :=
  t.initialised = s.initialised ∧ t.inputs = s.inputs ∧ t.turns = s.turns ∧ t.handoffWait = s.handoffWait ∧
    t.decodeWait = s.decodeWait ∧ t.freeDraws = s.freeDraws

/-- Two states that may differ only in elements of `active` and `snapshot` that no operation can ever show: elements no `EDGE` of the current
frame has written, or that a length check excludes (10_state.md R34). While a full frame waits or is pending, its elements agree. -/
structure AgreeButStale (s t : State) : Prop where
  rest : t = { s with active := t.active, snapshot := t.snapshot }
  capturing : s.capState = .capturing → ∀ i : Fin 14, i < s.wpos → t.active[i] = s.active[i]
  complete : s.capState = .complete → s.sealedLen = 14 → t.active = s.active
  pending : s.snapLen = 14 → t.snapshot = s.snapshot

/-- The outcomes of two runs answer alike: both go on, to states in the relation `R`, or both stop for the same reason. -/
def SameOutcome (R : State → State → Prop) :
    Host.Outcome State Fault Refusal → Host.Outcome State Fault Refusal → Prop
  | .next s, .next t => R s t
  | .fault f, .fault g => f = g
  | .refused r, .refused q => r = q
  | .next _, .fault _ => False
  | .next _, .refused _ => False
  | .fault _, .next _ => False
  | .fault _, .refused _ => False
  | .refused _, .next _ => False
  | .refused _, .fault _ => False

end Sys2Proof.Machine
end

