-- ==== Sys2Proof/Certificates/Slice0/Obligations.lean ====
section
/-! DEFINITION. The statements for the provers. Each docstring names the rule of spec/ it formalises. A rule that carries `[decision: ...]` is
the spec's own choice and is followed as it stands; where the spec marks a sentence `[derived: ...]`, the docstring says so. -/

open Sys2Proof Sys2Proof.Machine

/-! ### Encoding -/

/-- Words written out in the spec (95_test_vectors.md V1 to V16, 45_host.md R190) and what each stands for, one for every operation, every reason
for a refusal among them. -/
def Obligations.SpecWordsDecode : Prop :=
  decodeWord 0x180030003 = .ok (.init true false 3 3) ∧
  decodeWord 0x1C0FFFFFF = .ok (.init true true 255 65535) ∧
  decodeWord 0x140050064 = .ok (.init false true 5 100) ∧
  decodeWord 0x200000000 = .ok .start ∧
  decodeWord 0x300000000 = .ok .stop ∧
  decodeWord 0x400000000 = .ok .rdtemp ∧
  decodeWord 0x500000000 = .ok .rderr ∧
  decodeWord 0x80000003C = .ok (.edge 60) ∧
  decodeWord 0x900000000 = .ok .longp ∧
  decodeWord 0xA00000000 = .ok .handoff ∧
  decodeWord 0xB00000000 = .ok .decode ∧
  decodeWord 0x180000003 = .error .zeroWindow ∧
  decodeWord 0x180030000 = .error .zeroLimit ∧
  decodeWord 0x181030003 = .error .reservedInitBits ∧
  decodeWord 0x1A0030003 = .error .reservedInitBits ∧
  decodeWord 0x000000000 = .error .reservedOpcode ∧
  decodeWord 0xF00000000 = .error .reservedOpcode ∧
  decodeWord 0xB80000000 = .error .nonzeroOperand

/-- Decode and encode agree: no bit of an operand is dropped (30_encoding.md R80 to R83). -/
def Obligations.DecodeOfEncodeIsInstruction : Prop :=
  ∀ i : Instr, i.wellFormed = true → decodeWord (encode i) = .ok i

/-- The other direction: a word has one meaning, legal, and no bit of it is ignored (30_encoding.md R82, R83, R87). -/
def Obligations.EncodeOfDecodedWordIsWord : Prop :=
  ∀ (w : OpWord) (i : Instr), decodeWord w = .ok i → i.wellFormed = true ∧ encode i = w

/-- 30_encoding.md R86: exactly the words with a reserved opcode, a format `Z` word with a non-zero operand, and an `INIT` word with a non-zero
reserved field, `f` = 0 or `l` = 0 are refused; a refused word changes no state and answers `REFUSED`, 0; an internal-operation word while its
guard is false answers `NOT_ENABLED`, 0 and changes no state. The fields of the word are written out here by division. -/
def Obligations.RefusedWordsChangeNothing : Prop :=
  (∀ w : OpWord,
    let opc := w.toNat / 2 ^ 32
    let x := w.toNat % 2 ^ 32
    (∃ e, decodeWord w = .error e) ↔
      (opc = 0 ∨ opc = 6 ∨ opc = 7 ∨ 12 ≤ opc) ∨
      (opc ∈ [2, 3, 4, 5, 9, 10, 11] ∧ x ≠ 0) ∨
      (opc = 1 ∧ (x / 2 ^ 24 % 2 ^ 6 ≠ 0 ∨ x / 2 ^ 16 % 2 ^ 8 = 0 ∨ x % 2 ^ 16 = 0))) ∧
  (∀ (w : OpWord) (s : State), s.initialised = true → (∃ e, decodeWord w = .error e) →
    performWord w s = .next { s with response := ⟨.refused, 0⟩ }) ∧
  (∀ s : State, s.initialised = true → s.capState ≠ .complete →
    performWord 0xA00000000 s = .next { s with response := ⟨.notEnabled, 0⟩ }) ∧
  (∀ s : State, s.initialised = true → s.pending = false →
    performWord 0xB00000000 s = .next { s with response := ⟨.notEnabled, 0⟩ })

/-- 30_encoding.md R84, R85, the layout and the numbers: `rsp[35:32]` is the status, `rsp[31:0]` the data. Only the numbers and the layout; who
answers what is `AnswersFollowTheStatusTable`. -/
def Obligations.ResponseWordLayout : Prop :=
  (∀ r : Response,
    (responseWord r).toNat / 2 ^ 32 = (statusCode r.status).toNat ∧ (responseWord r).toNat % 2 ^ 32 = r.data.toNat) ∧
  [statusCode .ok, statusCode .notRunning, statusCode .wrongParity, statusCode .lowRange, statusCode .highRange, statusCode .noReading,
    statusCode .notEnabled, statusCode .refused] = [0x0, 0x1, 0x2, 0x3, 0x4, 0x5, 0xE, 0xF]

/-- 30_encoding.md R84 and R85: who returns each status, and what `data` is. -/
def Obligations.AnswersFollowTheStatusTable : Prop :=
  ∀ (i : Instr) (s t : State), exec i s = .next t →
    (t.response.status = .notRunning → i = .rdtemp ∧ s.running = false) ∧
    (t.response.status = .wrongParity → i = .rdtemp ∧ s.fsm = .faulted .wrongParity) ∧
    (t.response.status = .lowRange → i = .rdtemp ∧ s.fsm = .faulted .lowRange) ∧
    (t.response.status = .highRange → i = .rdtemp ∧ s.fsm = .faulted .highRange) ∧
    (t.response.status = .noReading → i = .rderr ∧ s.seenValid = false) ∧
    (t.response.status = .notEnabled → i = .handoff ∧ s.capState ≠ .complete ∨ i = .decode ∧ s.pending = false) ∧
    (t.response.status = .refused → i.wellFormed = false) ∧
    (t.response.status ≠ .ok → t.response.data = 0) ∧
    (t.response.status = .ok → i = .rdtemp →
      t.response.data.toNat % 2 ^ 11 = (medianCode s).toNat ∧ t.response.data.toNat / 2 ^ 11 = 0) ∧
    (t.response.status = .ok → i = .rderr → t.response.data = s.errorcount) ∧
    (t.response.status = .ok → i ≠ .rdtemp → i ≠ .rderr → t.response.data = 0)

/-! ### Steps and scheduling -/

/-- A step runs the decoded instruction. The word a step performs is the one `fetchOp` gives, in the state it gives; with the outside's turn
recorded that is the oldest presented word, taken away with the turn; `withFetchWord` places a word exactly there. (Log 4: the model's own
fields.) -/
def Obligations.StepRunsTheDecodedInstruction : Prop :=
  (∀ (s t : State) (w : OpWord) (i : Instr), fetchOp s = (some w, t) → decodeWord w = .ok i → step s = exec i t) ∧
  (∀ (s t : State) (w : OpWord) (e : DecodeError), fetchOp s = (some w, t) → decodeWord w = .error e → step s = refuseWord t) ∧
  (∀ (s : State) (w : OpWord) (ws : List OpWord) (rest : List Agent), s.turns = .outside :: rest → s.inputs = w :: ws →
    fetchOp s = (some w, { s with turns := rest, inputs := ws })) ∧
  (∀ (s : State) (w : OpWord), step (s.withFetchWord 36 w.toNat) = performWord w s)

/-- 20_memory.md R66, with log 4's recorded turns: in an initialised machine an internal agent's turn performs its operation exactly when its
guard holds, and otherwise nothing but the turn passes; the outside's turn performs the oldest presented word whatever the state. -/
def Obligations.InternalOperationsHaveTheirGuards : Prop :=
  ∀ (s : State) (rest : List Agent), s.initialised = true →
    (s.turns = .frameAssembler :: rest →
      (s.capState = .complete → step s = exec .handoff { s with turns := rest }) ∧
      (s.capState ≠ .complete → step s = .next { s with turns := rest })) ∧
    (s.turns = .decoder :: rest →
      (s.pending = true → step s = exec .decode { s with turns := rest }) ∧
      (s.pending = false → step s = .next { s with turns := rest })) ∧
    (s.turns = .outside :: rest → ∀ w ws, s.inputs = w :: ws →
      ∃ t, step s = .next t ∧ step s = performWord w { s with turns := rest, inputs := ws })

/-- Beyond the recorded turns (log 4, DESIGN CHOICE, from 20_memory.md R65 "any interleaving"): if no agent can move nothing happens, and
otherwise one of the agents that can move moves, whichever the free choice picks; it is one that may be passed over no longer, if there is any
(log 17, DESIGN CHOICE, from R67). -/
def Obligations.UnrecordedTurnsMoveSomeReadyAgent : Prop :=
  ∀ s : State, s.turns = [] →
    (readyAgents s = [] → step s = .next s) ∧
    (readyAgents s ≠ [] → ∃ a ∈ readyAgents s, ∃ w t,
      agentWord a (passOver a s) = (some w, t) ∧ step s = performWord w t ∧
      ((∃ b, overdue s b = true) → overdue s a = true))

/-- 20_memory.md R67 for words that never end, as the model's free choice has it (log 17, DESIGN CHOICE): from every initialised state, whatever
words arrive and whatever finitely many moves are recorded, there is an unending execution, and every unending execution is weakly fair: an
internal operation that stays enabled occurs, however many words wait. -/
def Obligations.FreeChoiceIsWeaklyFair : Prop :=
  ∀ (words : Nat → List OpWord) (moves : Nat → List Agent),
    (∀ s : State, s.initialised = true → ∃ states : Nat → State, states 0 = s ∧ IsExecution words moves states) ∧
    ((∃ k, ∀ n, k ≤ n → moves n = []) → ∀ states : Nat → State, IsExecution words moves states → WeaklyFair words moves states)

/-- What weak fairness (20_memory.md R67) gives, in every unending execution that has it, whatever words and recorded moves arrive: from every
point on, a step comes that finds no frame waiting for `HANDOFF`, and one that finds no decode request pending. (That a frame is decoded rather
than dropped or replaced needs more: R67's last sentence but one.) -/
def Obligations.FairExecutionsServeWhatWaits : Prop :=
  ∀ (words : Nat → List OpWord) (moves : Nat → List Agent) (states : Nat → State), (states 0).initialised = true →
    IsExecution words moves states → WeaklyFair words moves states → ∀ n,
      (∃ m, n ≤ m ∧ (states m).capState ≠ .complete) ∧ ∃ m, n ≤ m ∧ (states m).pending = false

/-- 70_reset_and_hazards.md R260: the launch state is the result of an `INIT`; before the first accepted `INIT` every word but a legal `INIT` is
given no meaning, and a legal `INIT` is accepted. That reserved words and malformed `INIT` words have no meaning then either, rather than the
answer `REFUSED`, is the model's inference (log 6, DEDUCED). -/
def Obligations.RunsBeginWithInit : Prop :=
  State.reset.initialised = true ∧
  ∀ (w : OpWord) (s : State), s.initialised = false →
    (∀ a r f l, decodeWord w = .ok (.init a r f l) → ∃ t, performWord w s = .next t ∧ t.initialised = true ∧ t.response = ⟨.ok, 0⟩) ∧
    ((∀ a r f l, decodeWord w ≠ .ok (.init a r f l)) → performWord w s = .refused .beforeInit)

/-- "every word in every state after the first `INIT` has a defined outcome" (93_implementation_defined.md, end of part 1; 30_encoding.md R83,
R86): it goes on to a next state, and the machine stays initialised. -/
def Obligations.EveryWordCompletesAfterInit : Prop :=
  ∀ (w : OpWord) (s : State), s.initialised = true → ∃ t, performWord w s = .next t ∧ t.initialised = true

/-! ### Reset and the invariant -/

/-- The fields 10_state.md R34 gives a value are at it in the reset state, for the configuration of log 1; `active` and `snapshot`, whose
contents the rule leaves open, are not spoken of. -/
def Obligations.ResetHasTheSpecValues : Prop :=
  State.reset.capState = .idle ∧ State.reset.wpos = 0 ∧ State.reset.sealedLen = 0 ∧ State.reset.snapLen = 0 ∧
  State.reset.pending = false ∧ State.reset.window = List.replicate State.reset.cfgF.toNat 0 ∧ State.reset.head = 0 ∧
  State.reset.consecutive = 0 ∧ State.reset.errorcount = 0 ∧ State.reset.seenValid = false ∧ State.reset.fsm = .running ∧
  State.reset.response = ⟨.ok, 0⟩

/-- The reset state meets the invariant of 10_state.md section 6 (the spec marks R32 `[derived: ...]`; the configuration is log 1's). -/
def Obligations.ResetMeetsInvariant : Prop := State.reset.Inv

/-- Every step keeps the invariant of 10_state.md section 6 ("The following hold in every state reachable from `INIT`", marked
`[derived: ...]` by the spec), from every state that meets it, reachable or not. -/
def Obligations.StepKeepsInvariant : Prop :=
  ∀ s t : State, s.Inv → step s = .next t → t.Inv

/-- A legal `INIT` leads from any state at all, also an uninitialised one, to a state that meets the invariant (10_state.md section 6). -/
def Obligations.InitEstablishesInvariant : Prop :=
  ∀ (a r : Bool) (f : BitVec 8) (l : BitVec 16) (s : State), f ≠ 0 → l ≠ 0 → ∃ t, exec (.init a r f l) s = .next t ∧ t.Inv

/-! ### Host operations -/

/-- 45_host.md R190: the word, and the value of every field after `INIT`, from any state; `active` and `snapshot` are unspecified, so nothing is
said of them. -/
def Obligations.InitResetsEveryField : Prop :=
  (∀ a r f l, (encode (.init a r f l)).toNat =
    0x1 * 2 ^ 32 + a.toNat * 2 ^ 31 + r.toNat * 2 ^ 30 + f.toNat * 2 ^ 16 + l.toNat) ∧
  decodeWord 0x180030003 = .ok (.init true false 3 3) ∧
  ∀ (a r : Bool) (f : BitVec 8) (l : BitVec 16) (s : State), f ≠ 0 → l ≠ 0 →
    ∃ t, exec (.init a r f l) s = .next t ∧
      t.cfgF = f ∧ t.cfgLIMIT = l ∧ t.cfgRR = r ∧ t.running = a ∧
      t.capState = .idle ∧ t.wpos = 0 ∧ t.sealedLen = 0 ∧ t.snapLen = 0 ∧ t.pending = false ∧
      t.window = List.replicate f.toNat 0 ∧ t.head = 0 ∧ t.consecutive = 0 ∧ t.errorcount = 0 ∧ t.seenValid = false ∧
      t.fsm = .running ∧ t.response = ⟨.ok, 0⟩ ∧ t.initialised = true

/-- The model's choice (log 12, DESIGN CHOICE; no rule of the spec): `INIT` leaves the words presented and not yet performed, and the recorded
turns, as they were. -/
def Obligations.InitKeepsThePresentedWords : Prop :=
  ∀ (a r : Bool) (f : BitVec 8) (l : BitVec 16) (s : State), f ≠ 0 → l ≠ 0 →
    ∃ t, exec (.init a r f l) s = .next t ∧ t.inputs = s.inputs ∧ t.turns = s.turns

/-- 45_host.md R191: an `INIT` word with `f` = 0, `l` = 0 or a non-zero reserved field is refused, and the state with its earlier configuration is
unchanged; no other operation changes the configuration. -/
def Obligations.IllegalInitChangesNothing : Prop :=
  (∀ (w : OpWord) (s : State), s.initialised = true → w.toNat / 2 ^ 32 = 1 →
    (w.toNat / 2 ^ 24 % 2 ^ 6 ≠ 0 ∨ w.toNat / 2 ^ 16 % 2 ^ 8 = 0 ∨ w.toNat % 2 ^ 16 = 0) →
    performWord w s = .next { s with response := ⟨.refused, 0⟩ }) ∧
  (∀ (i : Instr) (s t : State), isInit i = false → exec i s = .next t → SameConfig s t)

/-- The model's inference (log 10, DEDUCED; 45_host.md R191 speaks of the word and the decoder, and no word decodes to such operands): the operation
`INIT` itself, given `f` = 0 or `l` = 0, answers `REFUSED` and changes nothing. -/
def Obligations.IllegalInitOperandsChangeNothing : Prop :=
  ∀ (a r : Bool) (f : BitVec 8) (l : BitVec 16) (s : State), s.initialised = true → (f = 0 ∨ l = 0) →
    exec (.init a r f l) s = .next { s with response := ⟨.refused, 0⟩ }

/-- 45_host.md R192 and R193: the word, and the three cases of `START`. The equations are the whole next state, so they are its frame too. -/
def Obligations.StartResumesFromIdle : Prop :=
  encode .start = 0x200000000 ∧
  ∀ s : State, s.initialised = true →
    (s.running = true → exec .start s = .next { s with response := ⟨.ok, 0⟩ }) ∧
    (s.running = false → s.cfgRR = false →
      exec .start s = .next { s with running := true, capState := .idle, wpos := 0, sealedLen := 0, response := ⟨.ok, 0⟩ }) ∧
    (s.running = false → s.cfgRR = true →
      exec .start s = .next
        { s with
          running := true, capState := .idle, wpos := 0, sealedLen := 0
          window := List.replicate s.cfgF.toNat 0, head := 0, consecutive := 0, fsm := .running
          response := ⟨.ok, 0⟩ })

/-- 45_host.md R194: the word, and the two cases of `STOP`; whole next states. -/
def Obligations.StopDropsTheFrameInProgress : Prop :=
  encode .stop = 0x300000000 ∧
  ∀ s : State, s.initialised = true →
    (s.running = false → exec .stop s = .next { s with response := ⟨.ok, 0⟩ }) ∧
    (s.running = true →
      exec .stop s = .next { s with running := false, capState := .idle, wpos := 0, sealedLen := 0, response := ⟨.ok, 0⟩ })

/-- 45_host.md R196 and R197: the word, and the three answers in their priority; only the answer changes. The median is read off any ascending
list of the window's values. -/
def Obligations.RdtempAnswersByPriority : Prop :=
  encode .rdtemp = 0x400000000 ∧
  ∀ s : State, s.initialised = true →
    (s.running = false → exec .rdtemp s = .next { s with response := ⟨.notRunning, 0⟩ }) ∧
    (s.running = true → s.fsm = .faulted .wrongParity → exec .rdtemp s = .next { s with response := ⟨.wrongParity, 0⟩ }) ∧
    (s.running = true → s.fsm = .faulted .lowRange → exec .rdtemp s = .next { s with response := ⟨.lowRange, 0⟩ }) ∧
    (s.running = true → s.fsm = .faulted .highRange → exec .rdtemp s = .next { s with response := ⟨.highRange, 0⟩ }) ∧
    (s.running = true → s.fsm = .running →
      ∀ (sorted : List RawCode) (m : RawCode), sorted.Perm s.window → sorted.Pairwise (· ≤ ·) → sorted[s.cfgF.toNat / 2]? = some m →
        exec .rdtemp s = .next { s with response := ⟨.ok, m.setWidth 32⟩ })

/-- 45_host.md R198: the word, and the two answers; only the answer changes, and neither `running` nor `fsm` matters. -/
def Obligations.RderrAnswersTheCount : Prop :=
  encode .rderr = 0x500000000 ∧
  ∀ s : State, s.initialised = true →
    (s.seenValid = false → exec .rderr s = .next { s with response := ⟨.noReading, 0⟩ }) ∧
    (s.seenValid = true → exec .rderr s = .next { s with response := ⟨.ok, s.errorcount⟩ })

/-- 20_memory.md R63: no read has a side effect. After an `RDTEMP` or `RDERR` only the answer differs, and repeated at once it answers the same. -/
def Obligations.ReadsHaveNoSideEffect : Prop :=
  ∀ s : State, s.initialised = true →
    (∃ r, exec .rdtemp s = .next { s with response := r } ∧
      exec .rdtemp { s with response := r } = .next { s with response := r }) ∧
    (∃ r, exec .rderr s = .next { s with response := r } ∧
      exec .rderr { s with response := r } = .next { s with response := r })

/-- The source's S8 and S9 (95_test_vectors.md, from 45_host.md R192, R194, R197): `START` twice is `START` once, `STOP` twice is `STOP` once,
and an `RDTEMP` after a `STOP` answers `NOT_RUNNING` whatever the state was. -/
def Obligations.StartAndStopAreIdempotent : Prop :=
  ∀ s t : State,
    (exec .start s = .next t → exec .start t = .next t) ∧
    (exec .stop s = .next t → exec .stop t = .next t ∧ exec .rdtemp t = .next { t with response := ⟨.notRunning, 0⟩ })

/-- 60_exceptions.md R245: what survives `STOP` then `START` from the running state. With `RR` = 0 everything but the frame in progress; with
`RR` = 1 also not the window, `head`, `consecutive` and `fsm`. `errorcount`, `seen_valid` and a pending request survive both. -/
def Obligations.StopThenStartContinuesOrRestarts : Prop :=
  ∀ s : State, s.initialised = true → s.running = true →
    (s.cfgRR = false →
      execAll [.stop, .start] s = .next { s with capState := .idle, wpos := 0, sealedLen := 0, response := ⟨.ok, 0⟩ }) ∧
    (s.cfgRR = true →
      execAll [.stop, .start] s = .next
        { s with
          capState := .idle, wpos := 0, sealedLen := 0
          window := List.replicate s.cfgF.toNat 0, head := 0, consecutive := 0, fsm := .running
          response := ⟨.ok, 0⟩ })

/-- 10_state.md R30: the classification, and that it is exactly what `RDTEMP` reports as its status. -/
def Obligations.RdtempReportsTheClassification : Prop :=
  (∀ s : State, s.running = false → classification s = .notRunning) ∧
  (∀ (s : State) (k : FaultKind), s.running = true → s.fsm = .faulted k → classification s = .fault k) ∧
  (∀ s : State, s.running = true → s.fsm = .running → classification s = .none) ∧
  ∀ s t : State, exec .rdtemp s = .next t →
    (classification s = .notRunning ↔ t.response.status = .notRunning) ∧
    (classification s = .fault .wrongParity ↔ t.response.status = .wrongParity) ∧
    (classification s = .fault .lowRange ↔ t.response.status = .lowRange) ∧
    (classification s = .fault .highRange ↔ t.response.status = .highRange) ∧
    (classification s = .none ↔ t.response.status = .ok)

/-! ### Capture -/

/-- 40_capture.md R100 and R101: the word, and every case of `EDGE`; whole next states. The element written is 0 in `IDLE`, else `wpos`. -/
def Obligations.EdgeFollowsTheDetector : Prop :=
  (∀ v : Interval, (encode (.edge v)).toNat = 0x8 * 2 ^ 32 + v.toNat) ∧
  ∀ (v : Interval) (s : State), s.initialised = true →
    (s.running = false → exec (.edge v) s = .next { s with response := ⟨.ok, 0⟩ }) ∧
    (s.running = true → s.capState = .idle →
      exec (.edge v) s = .next { s with active := s.active.set 0 v, wpos := 1, capState := .capturing, response := ⟨.ok, 0⟩ }) ∧
    (s.running = true → s.capState = .capturing → s.wpos ≠ 13 →
      exec (.edge v) s = .next { s with active := s.active.set s.wpos v, wpos := s.wpos + 1, response := ⟨.ok, 0⟩ }) ∧
    (s.running = true → s.capState = .capturing → s.wpos = 13 →
      exec (.edge v) s = .next
        { s with active := s.active.set 13 v, sealedLen := 14, wpos := 0, capState := .complete, response := ⟨.ok, 0⟩ }) ∧
    (s.running = true → s.capState = .complete → s.wpos ≠ 13 →
      exec (.edge v) s = .next { s with active := s.active.set s.wpos v, wpos := s.wpos + 1, response := ⟨.ok, 0⟩ }) ∧
    (s.running = true → s.capState = .complete → s.wpos = 13 →
      exec (.edge v) s = .next { s with active := s.active.set 13 v, sealedLen := 0, wpos := 0, response := ⟨.ok, 0⟩ })

/-- 20_memory.md R63, the clause on `EDGE`: it writes exactly one element of `active`, the one at 0 in `IDLE` and at `wpos` otherwise, and no
element of `snapshot` or `window`; while stopped it writes none. -/
def Obligations.EdgeWritesOneElement : Prop :=
  ∀ (v : Interval) (s t : State), exec (.edge v) s = .next t →
    (s.running = true → t.active[(if s.capState = .idle then 0 else s.wpos : Fin 14)] = v) ∧
    (∀ j : Fin 14, j ≠ (if s.capState = .idle then 0 else s.wpos) → t.active[j] = s.active[j]) ∧
    (s.running = false → t.active = s.active) ∧
    t.snapshot = s.snapshot ∧ t.window = s.window

/-- 40_capture.md R105 and R101: the word, and every case of `LONGP`; whole next states. -/
def Obligations.LongpFollowsTheDetector : Prop :=
  encode .longp = 0x900000000 ∧
  ∀ s : State, s.initialised = true →
    (s.running = false → exec .longp s = .next { s with response := ⟨.ok, 0⟩ }) ∧
    (s.running = true → s.capState = .idle → exec .longp s = .next { s with response := ⟨.ok, 0⟩ }) ∧
    (s.running = true → s.capState = .capturing →
      ∃ n : Fin 15, n.val = s.wpos.val ∧
        exec .longp s = .next { s with sealedLen := n, wpos := 0, capState := .complete, response := ⟨.ok, 0⟩ }) ∧
    (s.running = true → s.capState = .complete → s.wpos = 0 → exec .longp s = .next { s with response := ⟨.ok, 0⟩ }) ∧
    (s.running = true → s.capState = .complete → s.wpos ≠ 0 →
      exec .longp s = .next { s with sealedLen := 0, wpos := 0, response := ⟨.ok, 0⟩ })

/-- 40_capture.md R101: while `running` = 0 both capture words change nothing and answer `OK`, in whatever state the detector is. -/
def Obligations.StoppedCaptureIgnoresWords : Prop :=
  ∀ (v : Interval) (s : State), s.initialised = true → s.running = false →
    exec (.edge v) s = .next { s with response := ⟨.ok, 0⟩ } ∧ exec .longp s = .next { s with response := ⟨.ok, 0⟩ }

/-- 40_capture.md R103: a frame completes in two ways. From the detector at rest, fourteen samples fill `active` and seal with length 14; `k` of
them (1 to 13) and a `LONGP` seal with length `k`, the samples so far in `active`. (The path is R106's, which the spec marks
`[derived: ...]`.) -/
def Obligations.FramesSealByCountOrByLongPulse : Prop :=
  ∀ (vs : Buffer) (s : State), s.initialised = true → s.running = true → s.capState = .idle →
    execAll (vs.toList.map .edge) s =
      .next { s with active := vs, wpos := 0, sealedLen := 14, capState := .complete, response := ⟨.ok, 0⟩ } ∧
    ∀ k : Fin 14, k ≠ 0 → ∃ t, execAll ((vs.toList.take k).map .edge ++ [.longp]) s = .next t ∧
      t.sealedLen.val = k.val ∧ t.wpos = 0 ∧ t.capState = .complete ∧ (∀ j : Fin 14, j < k → t.active[j] = vs[j]) ∧
      (∀ j : Fin 14, k ≤ j → t.active[j] = s.active[j]) ∧ t.running = true ∧ t.response = ⟨.ok, 0⟩ ∧
      SameDecodeView s t ∧ SameHandoff s t ∧ SameConfig s t ∧ SamePorts s t

/-- 40_capture.md R102: a `HANDOFF` after `k` samples have arrived over a sealed frame copies a torn frame, elements below `k` from the new
transmission and the others from the sealed one, with the length at the seal; the `k` samples are dropped (41_handoff.md R123). -/
def Obligations.LateHandoffCopiesATornFrame : Prop :=
  ∀ (vs : Buffer) (k : Fin 14) (s : State), s.initialised = true → s.running = true → s.capState = .complete → s.wpos = 0 →
    ∃ t, execAll ((vs.toList.take k).map .edge ++ [.handoff]) s = .next t ∧
      (∀ j : Fin 14, t.snapshot[j] = if j < k then vs[j] else s.active[j]) ∧ t.active = t.snapshot ∧
      t.snapLen = s.sealedLen ∧ t.sealedLen = 0 ∧ t.wpos = 0 ∧ t.capState = .idle ∧ t.pending = true ∧
      SameDecodeView s t ∧ SameConfig s t ∧ SamePorts s t ∧ t.running = true

/-- 40_capture.md R104: fourteen samples over a sealed frame, or some and a `LONGP`, are an overrun: an empty frame waits, whatever the length
before, so several overruns count once. Handed off and decoded while `RUNNING` it is one failure of the class `WRONG_PARITY`
(42_decode.md R131). -/
def Obligations.OverrunCountsAsOneParityFailure : Prop :=
  ∀ (vs : Buffer) (s : State), s.initialised = true → s.running = true → s.capState = .complete → s.wpos = 0 →
    execAll (vs.toList.map .edge) s = .next { s with active := vs, sealedLen := 0, response := ⟨.ok, 0⟩ } ∧
    (∀ k : Fin 14, k ≠ 0 → ∃ t, execAll ((vs.toList.take k).map .edge ++ [.longp]) s = .next t ∧
      t.sealedLen = 0 ∧ t.wpos = 0 ∧ t.capState = .complete ∧ SameDecodeView s t ∧ SameHandoff s t) ∧
    (s.fsm = .running →
      execAll (vs.toList.map .edge ++ [.handoff, .decode]) s = .next
        { s with
          active := vs, snapshot := vs, snapLen := 0, sealedLen := 0, capState := .idle, pending := false
          errorcount := if s.errorcount = 0xFFFFFFFF then s.errorcount else s.errorcount + 1
          consecutive := s.consecutive + 1
          fsm := if s.cfgLIMIT ≤ s.consecutive + 1 then .faulted .wrongParity else .running
          response := ⟨.ok, 0⟩ })

/-! ### Hand-off -/

/-- 41_handoff.md R120 and R121: the word, and both cases of `HANDOFF`; whole next states. The cursor is reset here too and the length goes
along; `pending` is set whether or not it was. -/
def Obligations.HandoffServesTheFrame : Prop :=
  encode .handoff = 0xA00000000 ∧
  ∀ s : State, s.initialised = true →
    (s.capState ≠ .complete → exec .handoff s = .next { s with response := ⟨.notEnabled, 0⟩ }) ∧
    (s.capState = .complete →
      exec .handoff s = .next
        { s with
          snapshot := s.active, snapLen := s.sealedLen, sealedLen := 0, wpos := 0, capState := .idle, pending := true
          response := ⟨.ok, 0⟩ })

/-- 41_handoff.md R122: a replaced snapshot leaves no trace. What `HANDOFF` leads to does not depend on the slot: neither on whether it was full,
nor on the snapshot or the length it held; and the decode view is untouched, so no counter moves. -/
def Obligations.ReplacedSnapshotLeavesNoTrace : Prop :=
  ∀ (s : State) (b : Buffer) (n : Fin 15) (p : Bool), s.initialised = true → s.capState = .complete →
    ∃ t, exec .handoff s = .next t ∧ exec .handoff { s with snapshot := b, snapLen := n, pending := p } = .next t ∧
      t.pending = true ∧ SameDecodeView s t

/-! ### Decode -/

/-- 42_decode.md R130 with R131, R132, R134 to R138 and R140, the procedures of 44_fault.md R171, R172, R174 and 43_filter.md R161 written out:
the word, and every case of `DECODE` as a whole next state. Here the bits are numbered as the spec numbers them, parity is the evenness of the
number of ones, and the code is `256 * high + low`. -/
def Obligations.DecodeFollowsTheRule : Prop :=
  encode .decode = 0xB00000000 ∧
  ∀ s : State, s.initialised = true →
    (s.pending = false → exec .decode s = .next { s with response := ⟨.notEnabled, 0⟩ }) ∧
    (s.pending = true → ∀ k, s.fsm = .faulted k → exec .decode s = .next { s with pending := false, response := ⟨.ok, 0⟩ }) ∧
    (s.pending = true → s.fsm = .running →
      let b : Fin 14 → Nat := fun i => if s.snapshot[i].toNat < s.snapshot[0].toNat then 1 else 0
      let low := 128 * b 1 + 64 * b 2 + 32 * b 3 + 16 * b 4 + 8 * b 5 + 4 * b 6 + 2 * b 7 + b 8
      let high := 4 * b 10 + 2 * b 11 + b 12
      let code := 256 * high + low
      let consumed : State := { s with pending := false, response := ⟨.ok, 0⟩ }
      let failed : FaultKind → State := fun k =>
        { consumed with
          errorcount := if s.errorcount = 0xFFFFFFFF then s.errorcount else s.errorcount + 1
          consecutive := s.consecutive + 1
          fsm := if s.cfgLIMIT ≤ s.consecutive + 1 then .faulted k else .running }
      exec .decode s = .next
        (if s.snapLen.val < 14 then failed .wrongParity
        else if (b 1 + b 2 + b 3 + b 4 + b 5 + b 6 + b 7 + b 8 + b 9) % 2 = 1 ∨ (b 10 + b 11 + b 12 + b 13) % 2 = 1 then
          failed .wrongParity
        else if code = 0 then failed .lowRange
        else if code = 2047 then failed .highRange
        else
          { consumed with
            window := s.window.set s.head.toNat (BitVec.ofNat 11 code)
            head := BitVec.ofNat 8 ((s.head.toNat + 1) % s.cfgF.toNat)
            consecutive := 0
            seenValid := true }))

/-- 42_decode.md R141: `DECODE` does not read `running`; a request that was pending when a `STOP` occurred is still performed and still changes the
decode view, as the verdict on its snapshot says. Whole next states after the two operations. -/
def Obligations.DecodeDoesNotReadRunning : Prop :=
  (∀ (s t : State) (r : Bool), exec .decode s = .next t → exec .decode { s with running := r } = .next { t with running := r }) ∧
  ∀ s : State, s.initialised = true → s.running = true → s.pending = true → s.fsm = .running →
    let stopped : State :=
      { s with running := false, capState := .idle, wpos := 0, sealedLen := 0, pending := false, response := ⟨.ok, 0⟩ }
    (∀ c, snapshotVerdict s.snapLen s.snapshot = .success c →
      execAll [.stop, .decode] s = .next
        { stopped with
          window := s.window.set s.head.toNat c
          head := BitVec.ofNat 8 ((s.head.toNat + 1) % s.cfgF.toNat)
          consecutive := 0
          seenValid := true }) ∧
    (∀ k, snapshotVerdict s.snapLen s.snapshot = .failure k →
      execAll [.stop, .decode] s = .next
        { stopped with
          errorcount := if s.errorcount = 0xFFFFFFFF then s.errorcount else s.errorcount + 1
          consecutive := s.consecutive + 1
          fsm := if s.cfgLIMIT ≤ s.consecutive + 1 then .faulted k else .running })

/-- "For any valid bit pattern satisfying both parity equations, decode succeeds and reconstructs the exact RawCode encoded" (42_decode.md R142,
with 30_encoding.md R89 for the frame; both marked `[derived: ...]` by the spec), for every code, strobe and pair of samples on its two sides;
0 and 2047 are range faults. -/
def Obligations.FrameOfACodeDecodesToIt : Prop :=
  ∀ (theta lo hi : Interval) (c : RawCode), lo < theta → theta ≤ hi →
    snapshotVerdict 14 (samplesOfBits theta lo hi (bitsOfCode c)) =
      if c = 0 then .failure .lowRange else if c = 2047 then .failure .highRange else .success c

/-- "Flipping exactly one bit within either protected group causes that group's parity check to fail and the frame to be rejected"
(42_decode.md R142, marked `[derived: ...]`): of two full snapshots whose bits differ at exactly one position, one whose parities hold makes the
other a parity failure. -/
def Obligations.SingleBitFlipIsRejected : Prop :=
  ∀ (a b : Buffer) (p : Fin 14), p ≠ 0 → sampleBit a p ≠ sampleBit b p →
    (∀ i : Fin 14, i ≠ 0 → i ≠ p → sampleBit a i = sampleBit b i) →
    lowParityOk (frameBits a) = true → highParityOk (frameBits a) = true →
    snapshotVerdict 14 b = .failure .wrongParity

/-- 70_reset_and_hazards.md R279 (marked `[derived: ...]`): with all thirteen bits inverted every frame that held its parities is a parity
failure, never a wrong reading. -/
def Obligations.InvertedFrameFailsParity : Prop :=
  ∀ a b : Buffer, (∀ i : Fin 14, i ≠ 0 → sampleBit b i = !sampleBit a i) →
    lowParityOk (frameBits a) = true → highParityOk (frameBits a) = true → snapshotVerdict 14 b = .failure .wrongParity

/-- 42_decode.md R139 (marked `[derived: ...]`): the degenerate thresholds. -/
def Obligations.DegenerateThresholds : Prop :=
  ∀ a : Buffer,
    (a[0] = 0 → snapshotVerdict 14 a = .failure .lowRange) ∧
    ((∀ i : Fin 14, a[i] = a[0]) → snapshotVerdict 14 a = .failure .lowRange) ∧
    ((∀ i : Fin 14, i ≠ 0 → a[i] < a[0]) → snapshotVerdict 14 a = .failure .wrongParity)

/-! ### Filter -/

/-- 43_filter.md R161: a push writes the slot at `head` and advances `head` modulo `F`; after `F` or more pushes the window holds exactly the last
`F` pushed codes, and the slot at `head` is the oldest of them; with fewer pushes into a cleared window it is a neutral slot. From every state
that meets the invariant's clauses on the window. -/
def Obligations.WindowHoldsTheLastCodes : Prop :=
  (∀ s : State, s.cfgF ≠ 0 → s.window.length = s.cfgF.toNat → s.head < s.cfgF →
    (∀ c, pushCode c s =
      { s with window := s.window.set s.head.toNat c, head := BitVec.ofNat 8 ((s.head.toNat + 1) % s.cfgF.toNat) }) ∧
    ∀ cs : List RawCode, s.cfgF.toNat ≤ cs.length →
      let t := cs.foldl (fun u c => pushCode c u) s
      t.window.Perm (cs.drop (cs.length - s.cfgF.toNat)) ∧ t.window[t.head.toNat]? = cs[cs.length - s.cfgF.toNat]?) ∧
  ∀ (s : State) (cs : List RawCode), s.cfgF ≠ 0 → s.window = List.replicate s.cfgF.toNat 0 → s.head = 0 →
    cs.length < s.cfgF.toNat →
    let t := cs.foldl (fun u c => pushCode c u) s
    t.window[t.head.toNat]? = some 0

/-- 43_filter.md R162: the median is the element of index `F // 2` of the window's values in ascending order, whichever ascending list of them is
taken; it exists in every state that meets the invariant. -/
def Obligations.MedianIsTheMiddleElement : Prop :=
  ∀ s : State, s.Inv →
    ∀ sorted : List RawCode, sorted.Perm s.window → sorted.Pairwise (· ≤ ·) → sorted[s.cfgF.toNat / 2]? = some (medianCode s)

/-- 43_filter.md R163: before the window is full. With `p < F` pushes into a cleared window, the median is 0 while
`p <= F - 1 - F // 2`, and the `(p - (F - 1 - F // 2))`-th smallest pushed code after that. -/
def Obligations.MedianBeforeTheWindowIsFull : Prop :=
  ∀ (s : State) (cs : List RawCode), s.cfgF ≠ 0 → s.window = List.replicate s.cfgF.toNat 0 → s.head = 0 →
    cs.length < s.cfgF.toNat →
    let t := cs.foldl (fun u c => pushCode c u) s
    let q := s.cfgF.toNat - 1 - s.cfgF.toNat / 2
    (cs.length ≤ q → medianCode t = 0) ∧
    (q < cs.length → ∀ sorted : List RawCode, sorted.Perm cs → sorted.Pairwise (· ≤ ·) →
      sorted[cs.length - q - 1]? = some (medianCode t))

/-- 43_filter.md R167 (marked `[derived: ...]`): "`temperature()` equals `medianOf(last F valid codes) ...`, for any sequence of F or more
successful decodes". After `F` or more successes from a state that meets the invariant, capture running, `RDTEMP` answers `OK` with the middle
element of the last `F` codes. -/
def Obligations.RdtempReadsTheMedianOfTheLastCodes : Prop :=
  ∀ (s : State) (cs : List RawCode), s.Inv → s.running = true → s.fsm = .running → s.cfgF.toNat ≤ cs.length →
    let t := cs.foldl (fun u c => decodeSucceeds c u) s
    ∀ (sorted : List RawCode) (m : RawCode), sorted.Perm (cs.drop (cs.length - s.cfgF.toNat)) → sorted.Pairwise (· ≤ ·) →
      sorted[s.cfgF.toNat / 2]? = some m → exec .rdtemp t = .next { t with response := ⟨.ok, m.setWidth 32⟩ }

/-- 43_filter.md R165: the temperature map as an exact rational, its end points, one code step, the source's example (R169), and that the
temperature of what `RDTEMP` answers is that of the median. -/
def Obligations.TemperatureMap : Prop :=
  (∀ c : RawCode, temperature c = (c.toNat : Rat) / 2047 * 70 - 10) ∧ temperature 0 = -10 ∧ temperature 2047 = 60 ∧
  temperature 1100 = 56530 / 2047 ∧ (∀ c : RawCode, c ≠ 2047 → temperature (c + 1) - temperature c = 70 / 2047) ∧
  ∀ s : State, s.initialised = true → s.running = true → s.fsm = .running →
    ∃ t, exec .rdtemp s = .next t ∧ t.response.status = .ok ∧
      70 * (t.response.data.toNat : Rat) / 2047 - 10 = temperature (medianCode s)

/-! ### Escalation -/

/-- 44_fault.md R173 and R179 (marked `[derived: ...]`): from `RUNNING` with `consecutive` = 0, a run of `j` failures of any kinds leaves
`consecutive` = `j` and `RUNNING` while `j < LIMIT`; at `j = LIMIT` the machine is faulted with the kind of the last (R175). `errorcount` grows
by `j`, saturating (10_state.md R28), and the window is untouched (43_filter.md R168). -/
def Obligations.SustainedFailuresFault : Prop :=
  ∀ (s : State) (ks : List FaultKind), s.fsm = .running → s.consecutive = 0 → s.cfgLIMIT ≠ 0 → ks.length ≤ s.cfgLIMIT.toNat →
    let t := ks.foldl (fun u k => decodeFails k u) s
    t.consecutive.toNat = ks.length ∧ t.errorcount.toNat = min (s.errorcount.toNat + ks.length) 0xFFFFFFFF ∧
    t.window = s.window ∧ t.head = s.head ∧ t.seenValid = s.seenValid ∧
    (ks.length < s.cfgLIMIT.toNat → t.fsm = .running) ∧
    (ks.length = s.cfgLIMIT.toNat → ∀ k, ks.getLast? = some k → t.fsm = .faulted k)

/-- 44_fault.md R176 and R177: in `FAULTED` no operation changes the decode view, except `INIT` and a `START` from stopped with `RR` = 1; those
two leave `FAULTED`, with `consecutive` = 0. -/
def Obligations.FaultedIsTerminal : Prop :=
  ∀ (i : Instr) (s t : State) (k : FaultKind), s.fsm = .faulted k → exec i s = .next t →
    (isInit i = false → restarts i s = false → SameDecodeView s t) ∧
    (isInit i = true → i.wellFormed = true → t.fsm = .running ∧ t.consecutive = 0) ∧
    (restarts i s = true → t.fsm = .running ∧ t.consecutive = 0)

/-- 60_exceptions.md R230: the hard fault is entered only inside a `DECODE` whose failure brings `consecutive` to `LIMIT`; that `DECODE` changes
`pending`, the two counters and `fsm`, and nothing else of the state. -/
def Obligations.OnlyDecodeEntersTheHardFault : Prop :=
  ∀ (i : Instr) (s t : State) (k : FaultKind), s.Inv → s.fsm = .running → exec i s = .next t → t.fsm = .faulted k →
    i = .decode ∧ s.pending = true ∧ snapshotVerdict s.snapLen s.snapshot = .failure k ∧ t.consecutive = s.cfgLIMIT ∧
    t = { s with
      pending := false
      errorcount := if s.errorcount = 0xFFFFFFFF then s.errorcount else s.errorcount + 1
      consecutive := s.cfgLIMIT
      fsm := .faulted k
      response := ⟨.ok, 0⟩ }

/-- 10_state.md R28, its clause on `errorcount` ("monotonic, never reset") and R32 item 10: it never decreases but by `INIT`, and stays at its
maximum. -/
def Obligations.ErrorcountIsMonotonic : Prop :=
  ∀ (i : Instr) (s t : State), isInit i = false → exec i s = .next t →
    s.errorcount ≤ t.errorcount ∧ t.errorcount.toNat ≤ s.errorcount.toNat + 1 ∧
    (s.errorcount = 0xFFFFFFFF → t.errorcount = 0xFFFFFFFF)

/-! ### Whole-machine rules -/

/-- 10_state.md R31, the ownership table, field by field: an operation not named for a field leaves it as it was. (`INIT` leaves `active` and
`snapshot` unspecified, so it is named for them.) This is the frame of every operation; its last clause is on the model's own fields (logs 3, 4, 6). -/
def Obligations.FieldsAreWrittenByTheirOwners : Prop :=
  ∀ (i : Instr) (s t : State), exec i s = .next t →
    (isInit i = false → SameConfig s t) ∧
    (isInit i = false → i ≠ .start → i ≠ .stop → t.running = s.running) ∧
    (i = .decode ∨ i = .rdtemp ∨ i = .rderr → SameCaptureView s t) ∧
    (isInit i = false → (∀ v, i ≠ .edge v) → t.active = s.active) ∧
    (isInit i = false → i ≠ .handoff → t.snapshot = s.snapshot ∧ t.snapLen = s.snapLen) ∧
    (isInit i = false → i ≠ .handoff → i ≠ .decode → t.pending = s.pending) ∧
    (i = .handoff → t.pending = false → s.pending = false ∧ s.capState ≠ .complete) ∧
    (i = .decode → t.pending = false) ∧
    (isInit i = false → i ≠ .decode → restarts i s = false →
      t.window = s.window ∧ t.head = s.head ∧ t.consecutive = s.consecutive ∧ t.fsm = s.fsm) ∧
    (isInit i = false → i ≠ .decode → t.errorcount = s.errorcount ∧ t.seenValid = s.seenValid) ∧
    (isInit i = false → SamePorts s t)

/-- "no rule reads an element before an `EDGE` of the current frame wrote it or a length check excluded it" (10_state.md R34): the contents of
`active` and `snapshot` after an `INIT` can never be seen. Two machines that differ only in such elements go through the same steps, with the
same answers and the same state but for such elements, however long they run; and after an `INIT` any two contents are such a pair. -/
def Obligations.UnspecifiedContentsNeverShow : Prop :=
  (∀ (s : State) (a b : Buffer), s.capState = .idle → s.snapLen ≠ 14 → AgreeButStale s { s with active := a, snapshot := b }) ∧
  ∀ (n : Nat) (s t : State), AgreeButStale s t → SameOutcome AgreeButStale (runSteps n s) (runSteps n t)

/-- 20_memory.md R67 where finitely many words are presented (log 7; for words that never end: `FreeChoiceIsWeaklyFair`): from every
state that meets the invariant the machine comes to rest, no word left and no internal operation enabled, within a number of steps that its
presented words and recorded turns bound. -/
def Obligations.MachineComesToRest : Prop :=
  ∀ s : State, s.Inv → ∃ n t, n ≤ s.turns.length + 3 * s.inputs.length + 3 ∧ runSteps n s = .next t ∧
    t.Inv ∧ t.turns = [] ∧ t.inputs = [] ∧ t.capState ≠ .complete ∧ t.pending = false

/-- 70_reset_and_hazards.md R276 (marked `[derived: ...]`): under the eager schedule the full frame of a valid code, however its samples lie about
the strobe, leads to `success(c)`: the code stands in the window, the counters are as after a success, and the machine is again at the point
between two external operations. A frame of 0 or 2047 leads to a range failure instead. -/
def Obligations.EagerFrameLeadsToSuccess : Prop :=
  ∀ (theta lo hi : Interval) (c : RawCode) (s : State), lo < theta → theta ≤ hi →
    s.initialised = true → s.running = true → s.capState = .idle → s.fsm = .running →
    ∃ t, execAll (expandFrameRun theta lo hi c) s = .next t ∧ t.EagerPoint ∧ t.capState = .idle ∧ t.wpos = 0 ∧ t.sealedLen = 0 ∧
      t.snapLen = 14 ∧ t.response = ⟨.ok, 0⟩ ∧
      (c ≠ 0 → c ≠ 2047 →
        t.window = s.window.set s.head.toNat c ∧ t.head = BitVec.ofNat 8 ((s.head.toNat + 1) % s.cfgF.toNat) ∧
        t.consecutive = 0 ∧ t.seenValid = true ∧ t.errorcount = s.errorcount ∧ t.fsm = .running) ∧
      (c = 0 ∨ c = 2047 →
        t.window = s.window ∧ t.consecutive = s.consecutive + 1 ∧ t.seenValid = s.seenValid ∧
        t.fsm = if s.cfgLIMIT ≤ s.consecutive + 1 then .faulted (if c = 0 then .lowRange else .highRange) else .running) ∧
      SameConfig s t ∧ SamePorts s t ∧ t.running = true
end

