-- ==== Sys2Proof/Laws/Decode.lean ====
section
/-! SUPPORT. The fields of a word that was put together, and of one that is taken apart: one lemma per field (30_encoding.md R80, R82). -/

namespace Sys2Proof

/-- Bit `j` of `{opcode, operand}`. -/
theorem getLsbD_opWord (o : BitVec 4) (x : BitVec 32) (j : Nat) :
    (opWord o x).getLsbD j = if j < 32 then x.getLsbD j else o.getLsbD (j - 32) :=
  BitVec.getLsbD_append

@[simp] theorem opcodeOf_opWord (o : BitVec 4) (x : BitVec 32) : opcodeOf (opWord o x) = o := by
  unfold opcodeOf
  ext i hi
  simp [getLsbD_opWord, hi]

@[simp] theorem operandOf_opWord (o : BitVec 4) (x : BitVec 32) : operandOf (opWord o x) = x := by
  unfold operandOf
  ext i hi
  simp [getLsbD_opWord, hi]

theorem opWord_parts (w : OpWord) : opWord (opcodeOf w) (operandOf w) = w := by
  apply BitVec.eq_of_getLsbD_eq
  intro i hi
  rw [getLsbD_opWord]
  split
  · next h => simp [operandOf, h]
  · next h =>
    have h4 : i - 32 < 4 := by omega
    have he : 32 + (i - 32) = i := by omega
    simp [opcodeOf, h4, he]

theorem decodeZ_eq_ok {i j : Instr} {x : BitVec 32} : decodeZ i x = .ok j ↔ x = 0 ∧ i = j := by
  unfold decodeZ
  split <;> simp_all

theorem decodeI_eq_ok {x : BitVec 32} {i : Instr} :
    decodeI x = .ok i ↔
      fieldReserved x = 0 ∧ fieldF x ≠ 0 ∧ fieldL x ≠ 0 ∧ i = .init (fieldS x) (fieldR x) (fieldF x) (fieldL x) := by
  unfold decodeI
  split
  · simp_all
  · split
    · simp_all
    · split <;> simp_all [eq_comm]

/-- Bit `j` of `{s, r, 0b000000, f, l}`. -/
theorem getLsbD_operandI (a r : Bool) (f : BitVec 8) (l : BitVec 16) (j : Nat) :
    (operandI a r f l).getLsbD j =
      if j < 16 then l.getLsbD j else if j < 24 then f.getLsbD (j - 16) else if j = 30 then r else if j = 31 then a else false := by
  have h : (operandI a r f l).getLsbD j =
      if j < 16 then l.getLsbD j
      else if j - 16 < 8 then f.getLsbD (j - 16)
      else if j - 16 - 8 < 6 then (0#6).getLsbD (j - 16 - 8)
      else if j - 16 - 8 - 6 < 1 then (BitVec.ofBool r).getLsbD (j - 16 - 8 - 6)
      else (BitVec.ofBool a).getLsbD (j - 16 - 8 - 6 - 1) := by
    refine (BitVec.getLsbD_append (x := BitVec.ofBool a ++ BitVec.ofBool r ++ 0#6 ++ f) (y := l)).trans ?_
    refine if_congr Iff.rfl rfl ?_
    refine (BitVec.getLsbD_append (x := BitVec.ofBool a ++ BitVec.ofBool r ++ 0#6) (y := f)).trans ?_
    refine if_congr Iff.rfl rfl ?_
    refine (BitVec.getLsbD_append (x := BitVec.ofBool a ++ BitVec.ofBool r) (y := 0#6)).trans ?_
    refine if_congr Iff.rfl rfl ?_
    exact BitVec.getLsbD_append
  rw [h]
  by_cases h16 : j < 16
  · rw [if_pos h16, if_pos h16]
  rw [if_neg h16, if_neg h16]
  by_cases h24 : j < 24
  · rw [if_pos (by omega), if_pos h24]
  rw [if_neg (by omega), if_neg h24]
  by_cases h30 : j < 30
  · rw [if_pos (by omega), if_neg (by omega), if_neg (by omega)]
    simp
  rw [if_neg (by omega)]
  by_cases e30 : j = 30
  · subst e30
    simp
  rw [if_neg (by omega), if_neg e30, BitVec.getLsbD_ofBool]
  by_cases e31 : j = 31
  · subst e31
    simp
  · have : j - 16 - 8 - 6 - 1 ≠ 0 := by omega
    simp [this, e31]

@[simp] theorem fieldS_operandI (a r : Bool) (f : BitVec 8) (l : BitVec 16) : fieldS (operandI a r f l) = a := by
  rw [fieldS, getLsbD_operandI]
  simp

@[simp] theorem fieldR_operandI (a r : Bool) (f : BitVec 8) (l : BitVec 16) : fieldR (operandI a r f l) = r := by
  rw [fieldR, getLsbD_operandI]
  simp

@[simp] theorem fieldReserved_operandI (a r : Bool) (f : BitVec 8) (l : BitVec 16) : fieldReserved (operandI a r f l) = 0 := by
  unfold fieldReserved
  ext i hi
  rw [BitVec.getElem_extractLsb', getLsbD_operandI]
  repeat' rw [if_neg (by omega)]
  simp

@[simp] theorem fieldF_operandI (a r : Bool) (f : BitVec 8) (l : BitVec 16) : fieldF (operandI a r f l) = f := by
  unfold fieldF
  ext i hi
  rw [BitVec.getElem_extractLsb', getLsbD_operandI, if_neg (by omega), if_pos (by omega)]
  simp [BitVec.getLsbD_eq_getElem hi]

@[simp] theorem fieldL_operandI (a r : Bool) (f : BitVec 8) (l : BitVec 16) : fieldL (operandI a r f l) = l := by
  unfold fieldL
  ext i hi
  rw [BitVec.getElem_extractLsb', getLsbD_operandI, if_pos (by omega)]
  simp [BitVec.getLsbD_eq_getElem hi]

/-- An operand whose reserved bits are 0 is put together from its fields. -/
theorem operandI_fields (x : BitVec 32) (h : fieldReserved x = 0) : operandI (fieldS x) (fieldR x) (fieldF x) (fieldL x) = x := by
  apply BitVec.eq_of_getLsbD_eq
  intro j hj
  rw [getLsbD_operandI]
  split
  · next h16 => simp [fieldL, h16]
  · split
    · next h16 h24 =>
      have h8 : j - 16 < 8 := by omega
      have he : 16 + (j - 16) = j := by omega
      simp [fieldF, h8, he]
    · split
      · next h30 => subst h30; rfl
      · split
        · next h31 => subst h31; rfl
        · have h6 : j - 24 < 6 := by omega
          have he : 24 + (j - 24) = j := by omega
          have := congrArg (fun y => y.getLsbD (j - 24)) h
          simp only [fieldReserved, BitVec.getLsbD_extractLsb', h6, he, decide_true, Bool.true_and] at this
          simp [this]

end Sys2Proof
end

