-- ==== Sys2Proof/Laws/State.lean ====
section
/-! SUPPORT. One lemma per field per update of State, each true by rfl, so that no proof unfolds a record update. -/

namespace Sys2Proof.Machine

/-! ### respond -/

@[simp] theorem respond_cfgF (st : Status) (d : BitVec 32) (s : State) : (respond st d s).cfgF = s.cfgF := rfl
@[simp] theorem respond_cfgLIMIT (st : Status) (d : BitVec 32) (s : State) : (respond st d s).cfgLIMIT = s.cfgLIMIT := rfl
@[simp] theorem respond_cfgRR (st : Status) (d : BitVec 32) (s : State) : (respond st d s).cfgRR = s.cfgRR := rfl
@[simp] theorem respond_running (st : Status) (d : BitVec 32) (s : State) : (respond st d s).running = s.running := rfl
@[simp] theorem respond_capState (st : Status) (d : BitVec 32) (s : State) : (respond st d s).capState = s.capState := rfl
@[simp] theorem respond_wpos (st : Status) (d : BitVec 32) (s : State) : (respond st d s).wpos = s.wpos := rfl
@[simp] theorem respond_active (st : Status) (d : BitVec 32) (s : State) : (respond st d s).active = s.active := rfl
@[simp] theorem respond_sealedLen (st : Status) (d : BitVec 32) (s : State) : (respond st d s).sealedLen = s.sealedLen := rfl
@[simp] theorem respond_snapshot (st : Status) (d : BitVec 32) (s : State) : (respond st d s).snapshot = s.snapshot := rfl
@[simp] theorem respond_snapLen (st : Status) (d : BitVec 32) (s : State) : (respond st d s).snapLen = s.snapLen := rfl
@[simp] theorem respond_pending (st : Status) (d : BitVec 32) (s : State) : (respond st d s).pending = s.pending := rfl
@[simp] theorem respond_window (st : Status) (d : BitVec 32) (s : State) : (respond st d s).window = s.window := rfl
@[simp] theorem respond_head (st : Status) (d : BitVec 32) (s : State) : (respond st d s).head = s.head := rfl
@[simp] theorem respond_consecutive (st : Status) (d : BitVec 32) (s : State) : (respond st d s).consecutive = s.consecutive := rfl
@[simp] theorem respond_errorcount (st : Status) (d : BitVec 32) (s : State) : (respond st d s).errorcount = s.errorcount := rfl
@[simp] theorem respond_seenValid (st : Status) (d : BitVec 32) (s : State) : (respond st d s).seenValid = s.seenValid := rfl
@[simp] theorem respond_fsm (st : Status) (d : BitVec 32) (s : State) : (respond st d s).fsm = s.fsm := rfl
@[simp] theorem respond_response (st : Status) (d : BitVec 32) (s : State) : (respond st d s).response = ⟨st, d⟩ := rfl
@[simp] theorem respond_initialised (st : Status) (d : BitVec 32) (s : State) : (respond st d s).initialised = s.initialised := rfl
@[simp] theorem respond_inputs (st : Status) (d : BitVec 32) (s : State) : (respond st d s).inputs = s.inputs := rfl
@[simp] theorem respond_turns (st : Status) (d : BitVec 32) (s : State) : (respond st d s).turns = s.turns := rfl
@[simp] theorem respond_handoffWait (st : Status) (d : BitVec 32) (s : State) : (respond st d s).handoffWait = s.handoffWait := rfl
@[simp] theorem respond_decodeWait (st : Status) (d : BitVec 32) (s : State) : (respond st d s).decodeWait = s.decodeWait := rfl
@[simp] theorem respond_freeDraws (st : Status) (d : BitVec 32) (s : State) : (respond st d s).freeDraws = s.freeDraws := rfl

/-! ### writeActive -/

@[simp] theorem writeActive_cfgF (i : Fin 14) (v : Interval) (s : State) : (writeActive i v s).cfgF = s.cfgF := rfl
@[simp] theorem writeActive_cfgLIMIT (i : Fin 14) (v : Interval) (s : State) : (writeActive i v s).cfgLIMIT = s.cfgLIMIT := rfl
@[simp] theorem writeActive_cfgRR (i : Fin 14) (v : Interval) (s : State) : (writeActive i v s).cfgRR = s.cfgRR := rfl
@[simp] theorem writeActive_running (i : Fin 14) (v : Interval) (s : State) : (writeActive i v s).running = s.running := rfl
@[simp] theorem writeActive_capState (i : Fin 14) (v : Interval) (s : State) : (writeActive i v s).capState = s.capState := rfl
@[simp] theorem writeActive_wpos (i : Fin 14) (v : Interval) (s : State) : (writeActive i v s).wpos = s.wpos := rfl
@[simp] theorem writeActive_active (i : Fin 14) (v : Interval) (s : State) : (writeActive i v s).active = s.active.set i.val v i.isLt := rfl
@[simp] theorem writeActive_sealedLen (i : Fin 14) (v : Interval) (s : State) : (writeActive i v s).sealedLen = s.sealedLen := rfl
@[simp] theorem writeActive_snapshot (i : Fin 14) (v : Interval) (s : State) : (writeActive i v s).snapshot = s.snapshot := rfl
@[simp] theorem writeActive_snapLen (i : Fin 14) (v : Interval) (s : State) : (writeActive i v s).snapLen = s.snapLen := rfl
@[simp] theorem writeActive_pending (i : Fin 14) (v : Interval) (s : State) : (writeActive i v s).pending = s.pending := rfl
@[simp] theorem writeActive_window (i : Fin 14) (v : Interval) (s : State) : (writeActive i v s).window = s.window := rfl
@[simp] theorem writeActive_head (i : Fin 14) (v : Interval) (s : State) : (writeActive i v s).head = s.head := rfl
@[simp] theorem writeActive_consecutive (i : Fin 14) (v : Interval) (s : State) : (writeActive i v s).consecutive = s.consecutive := rfl
@[simp] theorem writeActive_errorcount (i : Fin 14) (v : Interval) (s : State) : (writeActive i v s).errorcount = s.errorcount := rfl
@[simp] theorem writeActive_seenValid (i : Fin 14) (v : Interval) (s : State) : (writeActive i v s).seenValid = s.seenValid := rfl
@[simp] theorem writeActive_fsm (i : Fin 14) (v : Interval) (s : State) : (writeActive i v s).fsm = s.fsm := rfl
@[simp] theorem writeActive_response (i : Fin 14) (v : Interval) (s : State) : (writeActive i v s).response = s.response := rfl
@[simp] theorem writeActive_initialised (i : Fin 14) (v : Interval) (s : State) : (writeActive i v s).initialised = s.initialised := rfl
@[simp] theorem writeActive_inputs (i : Fin 14) (v : Interval) (s : State) : (writeActive i v s).inputs = s.inputs := rfl
@[simp] theorem writeActive_turns (i : Fin 14) (v : Interval) (s : State) : (writeActive i v s).turns = s.turns := rfl
@[simp] theorem writeActive_handoffWait (i : Fin 14) (v : Interval) (s : State) : (writeActive i v s).handoffWait = s.handoffWait := rfl
@[simp] theorem writeActive_decodeWait (i : Fin 14) (v : Interval) (s : State) : (writeActive i v s).decodeWait = s.decodeWait := rfl
@[simp] theorem writeActive_freeDraws (i : Fin 14) (v : Interval) (s : State) : (writeActive i v s).freeDraws = s.freeDraws := rfl

/-! ### copyActive -/

@[simp] theorem copyActive_cfgF (s : State) : (copyActive s).cfgF = s.cfgF := rfl
@[simp] theorem copyActive_cfgLIMIT (s : State) : (copyActive s).cfgLIMIT = s.cfgLIMIT := rfl
@[simp] theorem copyActive_cfgRR (s : State) : (copyActive s).cfgRR = s.cfgRR := rfl
@[simp] theorem copyActive_running (s : State) : (copyActive s).running = s.running := rfl
@[simp] theorem copyActive_capState (s : State) : (copyActive s).capState = s.capState := rfl
@[simp] theorem copyActive_wpos (s : State) : (copyActive s).wpos = s.wpos := rfl
@[simp] theorem copyActive_active (s : State) : (copyActive s).active = s.active := rfl
@[simp] theorem copyActive_sealedLen (s : State) : (copyActive s).sealedLen = s.sealedLen := rfl
@[simp] theorem copyActive_snapshot (s : State) : (copyActive s).snapshot = s.active := rfl
@[simp] theorem copyActive_snapLen (s : State) : (copyActive s).snapLen = s.snapLen := rfl
@[simp] theorem copyActive_pending (s : State) : (copyActive s).pending = s.pending := rfl
@[simp] theorem copyActive_window (s : State) : (copyActive s).window = s.window := rfl
@[simp] theorem copyActive_head (s : State) : (copyActive s).head = s.head := rfl
@[simp] theorem copyActive_consecutive (s : State) : (copyActive s).consecutive = s.consecutive := rfl
@[simp] theorem copyActive_errorcount (s : State) : (copyActive s).errorcount = s.errorcount := rfl
@[simp] theorem copyActive_seenValid (s : State) : (copyActive s).seenValid = s.seenValid := rfl
@[simp] theorem copyActive_fsm (s : State) : (copyActive s).fsm = s.fsm := rfl
@[simp] theorem copyActive_response (s : State) : (copyActive s).response = s.response := rfl
@[simp] theorem copyActive_initialised (s : State) : (copyActive s).initialised = s.initialised := rfl
@[simp] theorem copyActive_inputs (s : State) : (copyActive s).inputs = s.inputs := rfl
@[simp] theorem copyActive_turns (s : State) : (copyActive s).turns = s.turns := rfl
@[simp] theorem copyActive_handoffWait (s : State) : (copyActive s).handoffWait = s.handoffWait := rfl
@[simp] theorem copyActive_decodeWait (s : State) : (copyActive s).decodeWait = s.decodeWait := rfl
@[simp] theorem copyActive_freeDraws (s : State) : (copyActive s).freeDraws = s.freeDraws := rfl

/-! ### freeBuffers -/

@[simp] theorem freeBuffers_cfgF (s : State) : (freeBuffers s).cfgF = s.cfgF := rfl
@[simp] theorem freeBuffers_cfgLIMIT (s : State) : (freeBuffers s).cfgLIMIT = s.cfgLIMIT := rfl
@[simp] theorem freeBuffers_cfgRR (s : State) : (freeBuffers s).cfgRR = s.cfgRR := rfl
@[simp] theorem freeBuffers_running (s : State) : (freeBuffers s).running = s.running := rfl
@[simp] theorem freeBuffers_capState (s : State) : (freeBuffers s).capState = s.capState := rfl
@[simp] theorem freeBuffers_wpos (s : State) : (freeBuffers s).wpos = s.wpos := rfl
@[simp] theorem freeBuffers_active (s : State) : (freeBuffers s).active = freeBuffer s.freeDraws := rfl
@[simp] theorem freeBuffers_sealedLen (s : State) : (freeBuffers s).sealedLen = s.sealedLen := rfl
@[simp] theorem freeBuffers_snapshot (s : State) : (freeBuffers s).snapshot = freeBuffer (s.freeDraws + 14) := rfl
@[simp] theorem freeBuffers_snapLen (s : State) : (freeBuffers s).snapLen = s.snapLen := rfl
@[simp] theorem freeBuffers_pending (s : State) : (freeBuffers s).pending = s.pending := rfl
@[simp] theorem freeBuffers_window (s : State) : (freeBuffers s).window = s.window := rfl
@[simp] theorem freeBuffers_head (s : State) : (freeBuffers s).head = s.head := rfl
@[simp] theorem freeBuffers_consecutive (s : State) : (freeBuffers s).consecutive = s.consecutive := rfl
@[simp] theorem freeBuffers_errorcount (s : State) : (freeBuffers s).errorcount = s.errorcount := rfl
@[simp] theorem freeBuffers_seenValid (s : State) : (freeBuffers s).seenValid = s.seenValid := rfl
@[simp] theorem freeBuffers_fsm (s : State) : (freeBuffers s).fsm = s.fsm := rfl
@[simp] theorem freeBuffers_response (s : State) : (freeBuffers s).response = s.response := rfl
@[simp] theorem freeBuffers_initialised (s : State) : (freeBuffers s).initialised = s.initialised := rfl
@[simp] theorem freeBuffers_inputs (s : State) : (freeBuffers s).inputs = s.inputs := rfl
@[simp] theorem freeBuffers_turns (s : State) : (freeBuffers s).turns = s.turns := rfl
@[simp] theorem freeBuffers_handoffWait (s : State) : (freeBuffers s).handoffWait = s.handoffWait := rfl
@[simp] theorem freeBuffers_decodeWait (s : State) : (freeBuffers s).decodeWait = s.decodeWait := rfl
@[simp] theorem freeBuffers_freeDraws (s : State) : (freeBuffers s).freeDraws = s.freeDraws + 28 := rfl

/-! ### sealFrame -/

@[simp] theorem sealFrame_cfgF (n : Fin 15) (s : State) : (sealFrame n s).cfgF = s.cfgF := rfl
@[simp] theorem sealFrame_cfgLIMIT (n : Fin 15) (s : State) : (sealFrame n s).cfgLIMIT = s.cfgLIMIT := rfl
@[simp] theorem sealFrame_cfgRR (n : Fin 15) (s : State) : (sealFrame n s).cfgRR = s.cfgRR := rfl
@[simp] theorem sealFrame_running (n : Fin 15) (s : State) : (sealFrame n s).running = s.running := rfl
@[simp] theorem sealFrame_capState (n : Fin 15) (s : State) : (sealFrame n s).capState = .complete := rfl
@[simp] theorem sealFrame_wpos (n : Fin 15) (s : State) : (sealFrame n s).wpos = 0 := rfl
@[simp] theorem sealFrame_active (n : Fin 15) (s : State) : (sealFrame n s).active = s.active := rfl
@[simp] theorem sealFrame_sealedLen (n : Fin 15) (s : State) : (sealFrame n s).sealedLen = n := rfl
@[simp] theorem sealFrame_snapshot (n : Fin 15) (s : State) : (sealFrame n s).snapshot = s.snapshot := rfl
@[simp] theorem sealFrame_snapLen (n : Fin 15) (s : State) : (sealFrame n s).snapLen = s.snapLen := rfl
@[simp] theorem sealFrame_pending (n : Fin 15) (s : State) : (sealFrame n s).pending = s.pending := rfl
@[simp] theorem sealFrame_window (n : Fin 15) (s : State) : (sealFrame n s).window = s.window := rfl
@[simp] theorem sealFrame_head (n : Fin 15) (s : State) : (sealFrame n s).head = s.head := rfl
@[simp] theorem sealFrame_consecutive (n : Fin 15) (s : State) : (sealFrame n s).consecutive = s.consecutive := rfl
@[simp] theorem sealFrame_errorcount (n : Fin 15) (s : State) : (sealFrame n s).errorcount = s.errorcount := rfl
@[simp] theorem sealFrame_seenValid (n : Fin 15) (s : State) : (sealFrame n s).seenValid = s.seenValid := rfl
@[simp] theorem sealFrame_fsm (n : Fin 15) (s : State) : (sealFrame n s).fsm = s.fsm := rfl
@[simp] theorem sealFrame_response (n : Fin 15) (s : State) : (sealFrame n s).response = s.response := rfl
@[simp] theorem sealFrame_initialised (n : Fin 15) (s : State) : (sealFrame n s).initialised = s.initialised := rfl
@[simp] theorem sealFrame_inputs (n : Fin 15) (s : State) : (sealFrame n s).inputs = s.inputs := rfl
@[simp] theorem sealFrame_turns (n : Fin 15) (s : State) : (sealFrame n s).turns = s.turns := rfl
@[simp] theorem sealFrame_handoffWait (n : Fin 15) (s : State) : (sealFrame n s).handoffWait = s.handoffWait := rfl
@[simp] theorem sealFrame_decodeWait (n : Fin 15) (s : State) : (sealFrame n s).decodeWait = s.decodeWait := rfl
@[simp] theorem sealFrame_freeDraws (n : Fin 15) (s : State) : (sealFrame n s).freeDraws = s.freeDraws := rfl

/-! ### captureOverrun -/

@[simp] theorem captureOverrun_cfgF (s : State) : (captureOverrun s).cfgF = s.cfgF := rfl
@[simp] theorem captureOverrun_cfgLIMIT (s : State) : (captureOverrun s).cfgLIMIT = s.cfgLIMIT := rfl
@[simp] theorem captureOverrun_cfgRR (s : State) : (captureOverrun s).cfgRR = s.cfgRR := rfl
@[simp] theorem captureOverrun_running (s : State) : (captureOverrun s).running = s.running := rfl
@[simp] theorem captureOverrun_capState (s : State) : (captureOverrun s).capState = .complete := rfl
@[simp] theorem captureOverrun_wpos (s : State) : (captureOverrun s).wpos = 0 := rfl
@[simp] theorem captureOverrun_active (s : State) : (captureOverrun s).active = s.active := rfl
@[simp] theorem captureOverrun_sealedLen (s : State) : (captureOverrun s).sealedLen = 0 := rfl
@[simp] theorem captureOverrun_snapshot (s : State) : (captureOverrun s).snapshot = s.snapshot := rfl
@[simp] theorem captureOverrun_snapLen (s : State) : (captureOverrun s).snapLen = s.snapLen := rfl
@[simp] theorem captureOverrun_pending (s : State) : (captureOverrun s).pending = s.pending := rfl
@[simp] theorem captureOverrun_window (s : State) : (captureOverrun s).window = s.window := rfl
@[simp] theorem captureOverrun_head (s : State) : (captureOverrun s).head = s.head := rfl
@[simp] theorem captureOverrun_consecutive (s : State) : (captureOverrun s).consecutive = s.consecutive := rfl
@[simp] theorem captureOverrun_errorcount (s : State) : (captureOverrun s).errorcount = s.errorcount := rfl
@[simp] theorem captureOverrun_seenValid (s : State) : (captureOverrun s).seenValid = s.seenValid := rfl
@[simp] theorem captureOverrun_fsm (s : State) : (captureOverrun s).fsm = s.fsm := rfl
@[simp] theorem captureOverrun_response (s : State) : (captureOverrun s).response = s.response := rfl
@[simp] theorem captureOverrun_initialised (s : State) : (captureOverrun s).initialised = s.initialised := rfl
@[simp] theorem captureOverrun_inputs (s : State) : (captureOverrun s).inputs = s.inputs := rfl
@[simp] theorem captureOverrun_turns (s : State) : (captureOverrun s).turns = s.turns := rfl
@[simp] theorem captureOverrun_handoffWait (s : State) : (captureOverrun s).handoffWait = s.handoffWait := rfl
@[simp] theorem captureOverrun_decodeWait (s : State) : (captureOverrun s).decodeWait = s.decodeWait := rfl
@[simp] theorem captureOverrun_freeDraws (s : State) : (captureOverrun s).freeDraws = s.freeDraws := rfl

/-! ### detectorIdle -/

@[simp] theorem detectorIdle_cfgF (s : State) : (detectorIdle s).cfgF = s.cfgF := rfl
@[simp] theorem detectorIdle_cfgLIMIT (s : State) : (detectorIdle s).cfgLIMIT = s.cfgLIMIT := rfl
@[simp] theorem detectorIdle_cfgRR (s : State) : (detectorIdle s).cfgRR = s.cfgRR := rfl
@[simp] theorem detectorIdle_running (s : State) : (detectorIdle s).running = s.running := rfl
@[simp] theorem detectorIdle_capState (s : State) : (detectorIdle s).capState = .idle := rfl
@[simp] theorem detectorIdle_wpos (s : State) : (detectorIdle s).wpos = 0 := rfl
@[simp] theorem detectorIdle_active (s : State) : (detectorIdle s).active = s.active := rfl
@[simp] theorem detectorIdle_sealedLen (s : State) : (detectorIdle s).sealedLen = 0 := rfl
@[simp] theorem detectorIdle_snapshot (s : State) : (detectorIdle s).snapshot = s.snapshot := rfl
@[simp] theorem detectorIdle_snapLen (s : State) : (detectorIdle s).snapLen = s.snapLen := rfl
@[simp] theorem detectorIdle_pending (s : State) : (detectorIdle s).pending = s.pending := rfl
@[simp] theorem detectorIdle_window (s : State) : (detectorIdle s).window = s.window := rfl
@[simp] theorem detectorIdle_head (s : State) : (detectorIdle s).head = s.head := rfl
@[simp] theorem detectorIdle_consecutive (s : State) : (detectorIdle s).consecutive = s.consecutive := rfl
@[simp] theorem detectorIdle_errorcount (s : State) : (detectorIdle s).errorcount = s.errorcount := rfl
@[simp] theorem detectorIdle_seenValid (s : State) : (detectorIdle s).seenValid = s.seenValid := rfl
@[simp] theorem detectorIdle_fsm (s : State) : (detectorIdle s).fsm = s.fsm := rfl
@[simp] theorem detectorIdle_response (s : State) : (detectorIdle s).response = s.response := rfl
@[simp] theorem detectorIdle_initialised (s : State) : (detectorIdle s).initialised = s.initialised := rfl
@[simp] theorem detectorIdle_inputs (s : State) : (detectorIdle s).inputs = s.inputs := rfl
@[simp] theorem detectorIdle_turns (s : State) : (detectorIdle s).turns = s.turns := rfl
@[simp] theorem detectorIdle_handoffWait (s : State) : (detectorIdle s).handoffWait = s.handoffWait := rfl
@[simp] theorem detectorIdle_decodeWait (s : State) : (detectorIdle s).decodeWait = s.decodeWait := rfl
@[simp] theorem detectorIdle_freeDraws (s : State) : (detectorIdle s).freeDraws = s.freeDraws := rfl

/-! ### pushCode -/

@[simp] theorem pushCode_cfgF (c : RawCode) (s : State) : (pushCode c s).cfgF = s.cfgF := rfl
@[simp] theorem pushCode_cfgLIMIT (c : RawCode) (s : State) : (pushCode c s).cfgLIMIT = s.cfgLIMIT := rfl
@[simp] theorem pushCode_cfgRR (c : RawCode) (s : State) : (pushCode c s).cfgRR = s.cfgRR := rfl
@[simp] theorem pushCode_running (c : RawCode) (s : State) : (pushCode c s).running = s.running := rfl
@[simp] theorem pushCode_capState (c : RawCode) (s : State) : (pushCode c s).capState = s.capState := rfl
@[simp] theorem pushCode_wpos (c : RawCode) (s : State) : (pushCode c s).wpos = s.wpos := rfl
@[simp] theorem pushCode_active (c : RawCode) (s : State) : (pushCode c s).active = s.active := rfl
@[simp] theorem pushCode_sealedLen (c : RawCode) (s : State) : (pushCode c s).sealedLen = s.sealedLen := rfl
@[simp] theorem pushCode_snapshot (c : RawCode) (s : State) : (pushCode c s).snapshot = s.snapshot := rfl
@[simp] theorem pushCode_snapLen (c : RawCode) (s : State) : (pushCode c s).snapLen = s.snapLen := rfl
@[simp] theorem pushCode_pending (c : RawCode) (s : State) : (pushCode c s).pending = s.pending := rfl
@[simp] theorem pushCode_window (c : RawCode) (s : State) : (pushCode c s).window = s.window.set s.head.toNat c := rfl
@[simp] theorem pushCode_head (c : RawCode) (s : State) : (pushCode c s).head = BitVec.ofNat 8 ((s.head.toNat + 1) % s.cfgF.toNat) := rfl
@[simp] theorem pushCode_consecutive (c : RawCode) (s : State) : (pushCode c s).consecutive = s.consecutive := rfl
@[simp] theorem pushCode_errorcount (c : RawCode) (s : State) : (pushCode c s).errorcount = s.errorcount := rfl
@[simp] theorem pushCode_seenValid (c : RawCode) (s : State) : (pushCode c s).seenValid = s.seenValid := rfl
@[simp] theorem pushCode_fsm (c : RawCode) (s : State) : (pushCode c s).fsm = s.fsm := rfl
@[simp] theorem pushCode_response (c : RawCode) (s : State) : (pushCode c s).response = s.response := rfl
@[simp] theorem pushCode_initialised (c : RawCode) (s : State) : (pushCode c s).initialised = s.initialised := rfl
@[simp] theorem pushCode_inputs (c : RawCode) (s : State) : (pushCode c s).inputs = s.inputs := rfl
@[simp] theorem pushCode_turns (c : RawCode) (s : State) : (pushCode c s).turns = s.turns := rfl
@[simp] theorem pushCode_handoffWait (c : RawCode) (s : State) : (pushCode c s).handoffWait = s.handoffWait := rfl
@[simp] theorem pushCode_decodeWait (c : RawCode) (s : State) : (pushCode c s).decodeWait = s.decodeWait := rfl
@[simp] theorem pushCode_freeDraws (c : RawCode) (s : State) : (pushCode c s).freeDraws = s.freeDraws := rfl

/-! ### clearWindow -/

@[simp] theorem clearWindow_cfgF (s : State) : (clearWindow s).cfgF = s.cfgF := rfl
@[simp] theorem clearWindow_cfgLIMIT (s : State) : (clearWindow s).cfgLIMIT = s.cfgLIMIT := rfl
@[simp] theorem clearWindow_cfgRR (s : State) : (clearWindow s).cfgRR = s.cfgRR := rfl
@[simp] theorem clearWindow_running (s : State) : (clearWindow s).running = s.running := rfl
@[simp] theorem clearWindow_capState (s : State) : (clearWindow s).capState = s.capState := rfl
@[simp] theorem clearWindow_wpos (s : State) : (clearWindow s).wpos = s.wpos := rfl
@[simp] theorem clearWindow_active (s : State) : (clearWindow s).active = s.active := rfl
@[simp] theorem clearWindow_sealedLen (s : State) : (clearWindow s).sealedLen = s.sealedLen := rfl
@[simp] theorem clearWindow_snapshot (s : State) : (clearWindow s).snapshot = s.snapshot := rfl
@[simp] theorem clearWindow_snapLen (s : State) : (clearWindow s).snapLen = s.snapLen := rfl
@[simp] theorem clearWindow_pending (s : State) : (clearWindow s).pending = s.pending := rfl
@[simp] theorem clearWindow_window (s : State) : (clearWindow s).window = List.replicate s.cfgF.toNat Config.neutral := rfl
@[simp] theorem clearWindow_head (s : State) : (clearWindow s).head = 0 := rfl
@[simp] theorem clearWindow_consecutive (s : State) : (clearWindow s).consecutive = s.consecutive := rfl
@[simp] theorem clearWindow_errorcount (s : State) : (clearWindow s).errorcount = s.errorcount := rfl
@[simp] theorem clearWindow_seenValid (s : State) : (clearWindow s).seenValid = s.seenValid := rfl
@[simp] theorem clearWindow_fsm (s : State) : (clearWindow s).fsm = s.fsm := rfl
@[simp] theorem clearWindow_response (s : State) : (clearWindow s).response = s.response := rfl
@[simp] theorem clearWindow_initialised (s : State) : (clearWindow s).initialised = s.initialised := rfl
@[simp] theorem clearWindow_inputs (s : State) : (clearWindow s).inputs = s.inputs := rfl
@[simp] theorem clearWindow_turns (s : State) : (clearWindow s).turns = s.turns := rfl
@[simp] theorem clearWindow_handoffWait (s : State) : (clearWindow s).handoffWait = s.handoffWait := rfl
@[simp] theorem clearWindow_decodeWait (s : State) : (clearWindow s).decodeWait = s.decodeWait := rfl
@[simp] theorem clearWindow_freeDraws (s : State) : (clearWindow s).freeDraws = s.freeDraws := rfl

/-! ### raiseHardFault -/

@[simp] theorem raiseHardFault_cfgF (k : FaultKind) (s : State) : (raiseHardFault k s).cfgF = s.cfgF := rfl
@[simp] theorem raiseHardFault_cfgLIMIT (k : FaultKind) (s : State) : (raiseHardFault k s).cfgLIMIT = s.cfgLIMIT := rfl
@[simp] theorem raiseHardFault_cfgRR (k : FaultKind) (s : State) : (raiseHardFault k s).cfgRR = s.cfgRR := rfl
@[simp] theorem raiseHardFault_running (k : FaultKind) (s : State) : (raiseHardFault k s).running = s.running := rfl
@[simp] theorem raiseHardFault_capState (k : FaultKind) (s : State) : (raiseHardFault k s).capState = s.capState := rfl
@[simp] theorem raiseHardFault_wpos (k : FaultKind) (s : State) : (raiseHardFault k s).wpos = s.wpos := rfl
@[simp] theorem raiseHardFault_active (k : FaultKind) (s : State) : (raiseHardFault k s).active = s.active := rfl
@[simp] theorem raiseHardFault_sealedLen (k : FaultKind) (s : State) : (raiseHardFault k s).sealedLen = s.sealedLen := rfl
@[simp] theorem raiseHardFault_snapshot (k : FaultKind) (s : State) : (raiseHardFault k s).snapshot = s.snapshot := rfl
@[simp] theorem raiseHardFault_snapLen (k : FaultKind) (s : State) : (raiseHardFault k s).snapLen = s.snapLen := rfl
@[simp] theorem raiseHardFault_pending (k : FaultKind) (s : State) : (raiseHardFault k s).pending = s.pending := rfl
@[simp] theorem raiseHardFault_window (k : FaultKind) (s : State) : (raiseHardFault k s).window = s.window := rfl
@[simp] theorem raiseHardFault_head (k : FaultKind) (s : State) : (raiseHardFault k s).head = s.head := rfl
@[simp] theorem raiseHardFault_consecutive (k : FaultKind) (s : State) : (raiseHardFault k s).consecutive = s.consecutive := rfl
@[simp] theorem raiseHardFault_errorcount (k : FaultKind) (s : State) : (raiseHardFault k s).errorcount = s.errorcount := rfl
@[simp] theorem raiseHardFault_seenValid (k : FaultKind) (s : State) : (raiseHardFault k s).seenValid = s.seenValid := rfl
@[simp] theorem raiseHardFault_fsm (k : FaultKind) (s : State) : (raiseHardFault k s).fsm = .faulted k := rfl
@[simp] theorem raiseHardFault_response (k : FaultKind) (s : State) : (raiseHardFault k s).response = s.response := rfl
@[simp] theorem raiseHardFault_initialised (k : FaultKind) (s : State) : (raiseHardFault k s).initialised = s.initialised := rfl
@[simp] theorem raiseHardFault_inputs (k : FaultKind) (s : State) : (raiseHardFault k s).inputs = s.inputs := rfl
@[simp] theorem raiseHardFault_turns (k : FaultKind) (s : State) : (raiseHardFault k s).turns = s.turns := rfl
@[simp] theorem raiseHardFault_handoffWait (k : FaultKind) (s : State) : (raiseHardFault k s).handoffWait = s.handoffWait := rfl
@[simp] theorem raiseHardFault_decodeWait (k : FaultKind) (s : State) : (raiseHardFault k s).decodeWait = s.decodeWait := rfl
@[simp] theorem raiseHardFault_freeDraws (k : FaultKind) (s : State) : (raiseHardFault k s).freeDraws = s.freeDraws := rfl

/-! ### restartReset -/

@[simp] theorem restartReset_cfgF (s : State) : (restartReset s).cfgF = s.cfgF := rfl
@[simp] theorem restartReset_cfgLIMIT (s : State) : (restartReset s).cfgLIMIT = s.cfgLIMIT := rfl
@[simp] theorem restartReset_cfgRR (s : State) : (restartReset s).cfgRR = s.cfgRR := rfl
@[simp] theorem restartReset_running (s : State) : (restartReset s).running = s.running := rfl
@[simp] theorem restartReset_capState (s : State) : (restartReset s).capState = s.capState := rfl
@[simp] theorem restartReset_wpos (s : State) : (restartReset s).wpos = s.wpos := rfl
@[simp] theorem restartReset_active (s : State) : (restartReset s).active = s.active := rfl
@[simp] theorem restartReset_sealedLen (s : State) : (restartReset s).sealedLen = s.sealedLen := rfl
@[simp] theorem restartReset_snapshot (s : State) : (restartReset s).snapshot = s.snapshot := rfl
@[simp] theorem restartReset_snapLen (s : State) : (restartReset s).snapLen = s.snapLen := rfl
@[simp] theorem restartReset_pending (s : State) : (restartReset s).pending = s.pending := rfl
@[simp] theorem restartReset_window (s : State) : (restartReset s).window = List.replicate s.cfgF.toNat Config.neutral := rfl
@[simp] theorem restartReset_head (s : State) : (restartReset s).head = 0 := rfl
@[simp] theorem restartReset_consecutive (s : State) : (restartReset s).consecutive = 0 := rfl
@[simp] theorem restartReset_errorcount (s : State) : (restartReset s).errorcount = s.errorcount := rfl
@[simp] theorem restartReset_seenValid (s : State) : (restartReset s).seenValid = s.seenValid := rfl
@[simp] theorem restartReset_fsm (s : State) : (restartReset s).fsm = .running := rfl
@[simp] theorem restartReset_response (s : State) : (restartReset s).response = s.response := rfl
@[simp] theorem restartReset_initialised (s : State) : (restartReset s).initialised = s.initialised := rfl
@[simp] theorem restartReset_inputs (s : State) : (restartReset s).inputs = s.inputs := rfl
@[simp] theorem restartReset_turns (s : State) : (restartReset s).turns = s.turns := rfl
@[simp] theorem restartReset_handoffWait (s : State) : (restartReset s).handoffWait = s.handoffWait := rfl
@[simp] theorem restartReset_decodeWait (s : State) : (restartReset s).decodeWait = s.decodeWait := rfl
@[simp] theorem restartReset_freeDraws (s : State) : (restartReset s).freeDraws = s.freeDraws := rfl

/-! ### countFailure -/

@[simp] theorem countFailure_cfgF (s : State) : (countFailure s).cfgF = s.cfgF := rfl
@[simp] theorem countFailure_cfgLIMIT (s : State) : (countFailure s).cfgLIMIT = s.cfgLIMIT := rfl
@[simp] theorem countFailure_cfgRR (s : State) : (countFailure s).cfgRR = s.cfgRR := rfl
@[simp] theorem countFailure_running (s : State) : (countFailure s).running = s.running := rfl
@[simp] theorem countFailure_capState (s : State) : (countFailure s).capState = s.capState := rfl
@[simp] theorem countFailure_wpos (s : State) : (countFailure s).wpos = s.wpos := rfl
@[simp] theorem countFailure_active (s : State) : (countFailure s).active = s.active := rfl
@[simp] theorem countFailure_sealedLen (s : State) : (countFailure s).sealedLen = s.sealedLen := rfl
@[simp] theorem countFailure_snapshot (s : State) : (countFailure s).snapshot = s.snapshot := rfl
@[simp] theorem countFailure_snapLen (s : State) : (countFailure s).snapLen = s.snapLen := rfl
@[simp] theorem countFailure_pending (s : State) : (countFailure s).pending = s.pending := rfl
@[simp] theorem countFailure_window (s : State) : (countFailure s).window = s.window := rfl
@[simp] theorem countFailure_head (s : State) : (countFailure s).head = s.head := rfl
@[simp] theorem countFailure_consecutive (s : State) : (countFailure s).consecutive = s.consecutive + 1 := rfl
@[simp] theorem countFailure_errorcount (s : State) : (countFailure s).errorcount = saturatingIncrement s.errorcount := rfl
@[simp] theorem countFailure_seenValid (s : State) : (countFailure s).seenValid = s.seenValid := rfl
@[simp] theorem countFailure_fsm (s : State) : (countFailure s).fsm = s.fsm := rfl
@[simp] theorem countFailure_response (s : State) : (countFailure s).response = s.response := rfl
@[simp] theorem countFailure_initialised (s : State) : (countFailure s).initialised = s.initialised := rfl
@[simp] theorem countFailure_inputs (s : State) : (countFailure s).inputs = s.inputs := rfl
@[simp] theorem countFailure_turns (s : State) : (countFailure s).turns = s.turns := rfl
@[simp] theorem countFailure_handoffWait (s : State) : (countFailure s).handoffWait = s.handoffWait := rfl
@[simp] theorem countFailure_decodeWait (s : State) : (countFailure s).decodeWait = s.decodeWait := rfl
@[simp] theorem countFailure_freeDraws (s : State) : (countFailure s).freeDraws = s.freeDraws := rfl

/-! ### decodeSucceeds -/

@[simp] theorem decodeSucceeds_cfgF (c : RawCode) (s : State) : (decodeSucceeds c s).cfgF = s.cfgF := rfl
@[simp] theorem decodeSucceeds_cfgLIMIT (c : RawCode) (s : State) : (decodeSucceeds c s).cfgLIMIT = s.cfgLIMIT := rfl
@[simp] theorem decodeSucceeds_cfgRR (c : RawCode) (s : State) : (decodeSucceeds c s).cfgRR = s.cfgRR := rfl
@[simp] theorem decodeSucceeds_running (c : RawCode) (s : State) : (decodeSucceeds c s).running = s.running := rfl
@[simp] theorem decodeSucceeds_capState (c : RawCode) (s : State) : (decodeSucceeds c s).capState = s.capState := rfl
@[simp] theorem decodeSucceeds_wpos (c : RawCode) (s : State) : (decodeSucceeds c s).wpos = s.wpos := rfl
@[simp] theorem decodeSucceeds_active (c : RawCode) (s : State) : (decodeSucceeds c s).active = s.active := rfl
@[simp] theorem decodeSucceeds_sealedLen (c : RawCode) (s : State) : (decodeSucceeds c s).sealedLen = s.sealedLen := rfl
@[simp] theorem decodeSucceeds_snapshot (c : RawCode) (s : State) : (decodeSucceeds c s).snapshot = s.snapshot := rfl
@[simp] theorem decodeSucceeds_snapLen (c : RawCode) (s : State) : (decodeSucceeds c s).snapLen = s.snapLen := rfl
@[simp] theorem decodeSucceeds_pending (c : RawCode) (s : State) : (decodeSucceeds c s).pending = s.pending := rfl
@[simp] theorem decodeSucceeds_window (c : RawCode) (s : State) : (decodeSucceeds c s).window = s.window.set s.head.toNat c := rfl
@[simp] theorem decodeSucceeds_head (c : RawCode) (s : State) : (decodeSucceeds c s).head = BitVec.ofNat 8 ((s.head.toNat + 1) % s.cfgF.toNat) := rfl
@[simp] theorem decodeSucceeds_consecutive (c : RawCode) (s : State) : (decodeSucceeds c s).consecutive = 0 := rfl
@[simp] theorem decodeSucceeds_errorcount (c : RawCode) (s : State) : (decodeSucceeds c s).errorcount = s.errorcount := rfl
@[simp] theorem decodeSucceeds_seenValid (c : RawCode) (s : State) : (decodeSucceeds c s).seenValid = true := rfl
@[simp] theorem decodeSucceeds_fsm (c : RawCode) (s : State) : (decodeSucceeds c s).fsm = s.fsm := rfl
@[simp] theorem decodeSucceeds_response (c : RawCode) (s : State) : (decodeSucceeds c s).response = s.response := rfl
@[simp] theorem decodeSucceeds_initialised (c : RawCode) (s : State) : (decodeSucceeds c s).initialised = s.initialised := rfl
@[simp] theorem decodeSucceeds_inputs (c : RawCode) (s : State) : (decodeSucceeds c s).inputs = s.inputs := rfl
@[simp] theorem decodeSucceeds_turns (c : RawCode) (s : State) : (decodeSucceeds c s).turns = s.turns := rfl
@[simp] theorem decodeSucceeds_handoffWait (c : RawCode) (s : State) : (decodeSucceeds c s).handoffWait = s.handoffWait := rfl
@[simp] theorem decodeSucceeds_decodeWait (c : RawCode) (s : State) : (decodeSucceeds c s).decodeWait = s.decodeWait := rfl
@[simp] theorem decodeSucceeds_freeDraws (c : RawCode) (s : State) : (decodeSucceeds c s).freeDraws = s.freeDraws := rfl

/-! ### passOver -/

@[simp] theorem passOver_cfgF (a : Agent) (s : State) : (passOver a s).cfgF = s.cfgF := rfl
@[simp] theorem passOver_cfgLIMIT (a : Agent) (s : State) : (passOver a s).cfgLIMIT = s.cfgLIMIT := rfl
@[simp] theorem passOver_cfgRR (a : Agent) (s : State) : (passOver a s).cfgRR = s.cfgRR := rfl
@[simp] theorem passOver_running (a : Agent) (s : State) : (passOver a s).running = s.running := rfl
@[simp] theorem passOver_capState (a : Agent) (s : State) : (passOver a s).capState = s.capState := rfl
@[simp] theorem passOver_wpos (a : Agent) (s : State) : (passOver a s).wpos = s.wpos := rfl
@[simp] theorem passOver_active (a : Agent) (s : State) : (passOver a s).active = s.active := rfl
@[simp] theorem passOver_sealedLen (a : Agent) (s : State) : (passOver a s).sealedLen = s.sealedLen := rfl
@[simp] theorem passOver_snapshot (a : Agent) (s : State) : (passOver a s).snapshot = s.snapshot := rfl
@[simp] theorem passOver_snapLen (a : Agent) (s : State) : (passOver a s).snapLen = s.snapLen := rfl
@[simp] theorem passOver_pending (a : Agent) (s : State) : (passOver a s).pending = s.pending := rfl
@[simp] theorem passOver_window (a : Agent) (s : State) : (passOver a s).window = s.window := rfl
@[simp] theorem passOver_head (a : Agent) (s : State) : (passOver a s).head = s.head := rfl
@[simp] theorem passOver_consecutive (a : Agent) (s : State) : (passOver a s).consecutive = s.consecutive := rfl
@[simp] theorem passOver_errorcount (a : Agent) (s : State) : (passOver a s).errorcount = s.errorcount := rfl
@[simp] theorem passOver_seenValid (a : Agent) (s : State) : (passOver a s).seenValid = s.seenValid := rfl
@[simp] theorem passOver_fsm (a : Agent) (s : State) : (passOver a s).fsm = s.fsm := rfl
@[simp] theorem passOver_response (a : Agent) (s : State) : (passOver a s).response = s.response := rfl
@[simp] theorem passOver_initialised (a : Agent) (s : State) : (passOver a s).initialised = s.initialised := rfl
@[simp] theorem passOver_inputs (a : Agent) (s : State) : (passOver a s).inputs = s.inputs := rfl
@[simp] theorem passOver_turns (a : Agent) (s : State) : (passOver a s).turns = s.turns := rfl
@[simp] theorem passOver_handoffWait (a : Agent) (s : State) : (passOver a s).handoffWait = (if handoffEnabled s = true ∧ a ≠ .frameAssembler then some (handoffPatience s - 1) else none) := rfl
@[simp] theorem passOver_decodeWait (a : Agent) (s : State) : (passOver a s).decodeWait = (if decodeEnabled s = true ∧ a ≠ .decoder then some (decodePatience s - 1) else none) := rfl
@[simp] theorem passOver_freeDraws (a : Agent) (s : State) : (passOver a s).freeDraws = s.freeDraws + 2 := rfl

/-! ### offer -/

@[simp] theorem offer_cfgF (ws : List OpWord) (moves : List Agent) (s : State) : (offer ws moves s).cfgF = s.cfgF := rfl
@[simp] theorem offer_cfgLIMIT (ws : List OpWord) (moves : List Agent) (s : State) : (offer ws moves s).cfgLIMIT = s.cfgLIMIT := rfl
@[simp] theorem offer_cfgRR (ws : List OpWord) (moves : List Agent) (s : State) : (offer ws moves s).cfgRR = s.cfgRR := rfl
@[simp] theorem offer_running (ws : List OpWord) (moves : List Agent) (s : State) : (offer ws moves s).running = s.running := rfl
@[simp] theorem offer_capState (ws : List OpWord) (moves : List Agent) (s : State) : (offer ws moves s).capState = s.capState := rfl
@[simp] theorem offer_wpos (ws : List OpWord) (moves : List Agent) (s : State) : (offer ws moves s).wpos = s.wpos := rfl
@[simp] theorem offer_active (ws : List OpWord) (moves : List Agent) (s : State) : (offer ws moves s).active = s.active := rfl
@[simp] theorem offer_sealedLen (ws : List OpWord) (moves : List Agent) (s : State) : (offer ws moves s).sealedLen = s.sealedLen := rfl
@[simp] theorem offer_snapshot (ws : List OpWord) (moves : List Agent) (s : State) : (offer ws moves s).snapshot = s.snapshot := rfl
@[simp] theorem offer_snapLen (ws : List OpWord) (moves : List Agent) (s : State) : (offer ws moves s).snapLen = s.snapLen := rfl
@[simp] theorem offer_pending (ws : List OpWord) (moves : List Agent) (s : State) : (offer ws moves s).pending = s.pending := rfl
@[simp] theorem offer_window (ws : List OpWord) (moves : List Agent) (s : State) : (offer ws moves s).window = s.window := rfl
@[simp] theorem offer_head (ws : List OpWord) (moves : List Agent) (s : State) : (offer ws moves s).head = s.head := rfl
@[simp] theorem offer_consecutive (ws : List OpWord) (moves : List Agent) (s : State) : (offer ws moves s).consecutive = s.consecutive := rfl
@[simp] theorem offer_errorcount (ws : List OpWord) (moves : List Agent) (s : State) : (offer ws moves s).errorcount = s.errorcount := rfl
@[simp] theorem offer_seenValid (ws : List OpWord) (moves : List Agent) (s : State) : (offer ws moves s).seenValid = s.seenValid := rfl
@[simp] theorem offer_fsm (ws : List OpWord) (moves : List Agent) (s : State) : (offer ws moves s).fsm = s.fsm := rfl
@[simp] theorem offer_response (ws : List OpWord) (moves : List Agent) (s : State) : (offer ws moves s).response = s.response := rfl
@[simp] theorem offer_initialised (ws : List OpWord) (moves : List Agent) (s : State) : (offer ws moves s).initialised = s.initialised := rfl
@[simp] theorem offer_inputs (ws : List OpWord) (moves : List Agent) (s : State) : (offer ws moves s).inputs = s.inputs ++ ws := rfl
@[simp] theorem offer_turns (ws : List OpWord) (moves : List Agent) (s : State) : (offer ws moves s).turns = s.turns ++ moves := rfl
@[simp] theorem offer_handoffWait (ws : List OpWord) (moves : List Agent) (s : State) : (offer ws moves s).handoffWait = s.handoffWait := rfl
@[simp] theorem offer_decodeWait (ws : List OpWord) (moves : List Agent) (s : State) : (offer ws moves s).decodeWait = s.decodeWait := rfl
@[simp] theorem offer_freeDraws (ws : List OpWord) (moves : List Agent) (s : State) : (offer ws moves s).freeDraws = s.freeDraws := rfl

/-! ### handOver -/

@[simp] theorem handOver_cfgF (s : State) : (handOver s).cfgF = s.cfgF := rfl
@[simp] theorem handOver_cfgLIMIT (s : State) : (handOver s).cfgLIMIT = s.cfgLIMIT := rfl
@[simp] theorem handOver_cfgRR (s : State) : (handOver s).cfgRR = s.cfgRR := rfl
@[simp] theorem handOver_running (s : State) : (handOver s).running = s.running := rfl
@[simp] theorem handOver_capState (s : State) : (handOver s).capState = .idle := rfl
@[simp] theorem handOver_wpos (s : State) : (handOver s).wpos = 0 := rfl
@[simp] theorem handOver_active (s : State) : (handOver s).active = s.active := rfl
@[simp] theorem handOver_sealedLen (s : State) : (handOver s).sealedLen = 0 := rfl
@[simp] theorem handOver_snapshot (s : State) : (handOver s).snapshot = s.active := rfl
@[simp] theorem handOver_snapLen (s : State) : (handOver s).snapLen = s.sealedLen := rfl
@[simp] theorem handOver_pending (s : State) : (handOver s).pending = true := rfl
@[simp] theorem handOver_window (s : State) : (handOver s).window = s.window := rfl
@[simp] theorem handOver_head (s : State) : (handOver s).head = s.head := rfl
@[simp] theorem handOver_consecutive (s : State) : (handOver s).consecutive = s.consecutive := rfl
@[simp] theorem handOver_errorcount (s : State) : (handOver s).errorcount = s.errorcount := rfl
@[simp] theorem handOver_seenValid (s : State) : (handOver s).seenValid = s.seenValid := rfl
@[simp] theorem handOver_fsm (s : State) : (handOver s).fsm = s.fsm := rfl
@[simp] theorem handOver_response (s : State) : (handOver s).response = s.response := rfl
@[simp] theorem handOver_initialised (s : State) : (handOver s).initialised = s.initialised := rfl
@[simp] theorem handOver_inputs (s : State) : (handOver s).inputs = s.inputs := rfl
@[simp] theorem handOver_turns (s : State) : (handOver s).turns = s.turns := rfl
@[simp] theorem handOver_handoffWait (s : State) : (handOver s).handoffWait = s.handoffWait := rfl
@[simp] theorem handOver_decodeWait (s : State) : (handOver s).decodeWait = s.decodeWait := rfl
@[simp] theorem handOver_freeDraws (s : State) : (handOver s).freeDraws = s.freeDraws := rfl

end Sys2Proof.Machine
end

