-- ==== Sys2Proof/Laws/Ops.lean ====
section
/-! SUPPORT. What each shared operation can do, once: answering, the counters and the escalation, the window and its median, the verdict on a
snapshot, the moves of the detector. Proofs about the meanings cite these and do not unfold the operations. -/

namespace Sys2Proof.Machine

/-! ### Answering -/

@[simp] theorem acknowledge_eq (s : State) : acknowledge s = respond .ok 0 s := rfl

theorem afterInit_eq_next_iff {s t u : State} : afterInit s t = .next u ↔ s.initialised = true ∧ t = u := by
  unfold afterInit
  split <;> simp_all

theorem afterInit_of_initialised {s : State} (h : s.initialised = true) (t : State) : afterInit s t = .next t := by
  simp [afterInit, h]

theorem afterInit_of_not_initialised {s : State} (h : s.initialised = false) (t : State) : afterInit s t = .refused .beforeInit := by
  simp [afterInit, h]

/-! ### Counters and escalation -/

theorem saturatingIncrement_toNat (c : BitVec 32) : (saturatingIncrement c).toNat = min (c.toNat + 1) 0xFFFFFFFF := by
  unfold saturatingIncrement Config.errorcountMax
  split
  · next h => subst h; rfl
  · next h =>
    have : c.toNat ≠ 0xFFFFFFFF := fun e => h (BitVec.eq_of_toNat_eq e)
    have := c.isLt
    have h1 : (1 : BitVec 32).toNat = 1 := rfl
    rw [BitVec.toNat_add, h1]
    omega

theorem le_saturatingIncrement (c : BitVec 32) : c ≤ saturatingIncrement c := by
  have := c.isLt
  rw [BitVec.le_def, saturatingIncrement_toNat]
  omega

/-- `fail(kind)` as one record: only the two counters and `fsm` change. -/
theorem decodeFails_eq (k : FaultKind) (s : State) :
    decodeFails k s =
      { s with
        errorcount := saturatingIncrement s.errorcount
        consecutive := s.consecutive + 1
        fsm := if s.cfgLIMIT ≤ s.consecutive + 1 then .faulted k else s.fsm } := by
  unfold decodeFails
  rw [countFailure_cfgLIMIT, countFailure_consecutive]
  split <;> rfl

/-- `success(code)` as one record. -/
theorem decodeSucceeds_eq (c : RawCode) (s : State) :
    decodeSucceeds c s =
      { s with
        window := s.window.set s.head.toNat c
        head := BitVec.ofNat 8 ((s.head.toNat + 1) % s.cfgF.toNat)
        consecutive := 0
        seenValid := true } := rfl

/-- A `DECODE` in `RUNNING` is a failure or a success, and a failure is not told apart but by its kind. -/
theorem applyVerdict_cases (v : Verdict) (s : State) :
    (∃ k, v = .failure k ∧ applyVerdict v s = decodeFails k s) ∨ (∃ c, v = .success c ∧ applyVerdict v s = decodeSucceeds c s) := by
  cases v with
  | success c => exact .inr ⟨c, rfl, rfl⟩
  | failure k => exact .inl ⟨k, rfl, rfl⟩

/-- A code that succeeds is no sentinel (42_decode.md R138). -/
theorem rangeVerdict_success {c d : RawCode} (h : rangeVerdict c = .success d) : d = c ∧ c ≠ 0 ∧ c ≠ 2047 := by
  unfold rangeVerdict at h
  split at h
  · cases h
  · split at h
    · cases h
    · next h0 h1 => cases h; exact ⟨rfl, h0, h1⟩

/-- Only a full snapshot with both parities even and a code in range succeeds. -/
theorem snapshotVerdict_success {n : Fin 15} {b : Buffer} {c : RawCode} (h : snapshotVerdict n b = .success c) :
    n = 14 ∧ lowParityOk (frameBits b) = true ∧ highParityOk (frameBits b) = true ∧ c = codeOf (frameBits b) ∧ c ≠ 0 ∧ c ≠ 2047 := by
  unfold snapshotVerdict bitsVerdict at h
  split at h
  · cases h
  · next hn =>
    split at h
    · next hp =>
      obtain ⟨hc, h0, h1⟩ := rangeVerdict_success h
      rw [Bool.and_eq_true] at hp
      exact ⟨by omega, hp.1, hp.2, hc, by rwa [hc], by rwa [hc]⟩
    · cases h

/-- A snapshot that is not full is not read (42_decode.md R131). -/
theorem snapshotVerdict_of_short {n : Fin 15} (h : n ≠ 14) (b : Buffer) : snapshotVerdict n b = .failure .wrongParity := by
  unfold snapshotVerdict
  rw [if_pos (by omega)]

/-! ### The window -/

theorem pushCode_window_length (c : RawCode) (s : State) : (pushCode c s).window.length = s.window.length := by
  simp

theorem pushCode_head_toNat (c : RawCode) (s : State) (h : s.cfgF ≠ 0) :
    (pushCode c s).head.toNat = (s.head.toNat + 1) % s.cfgF.toNat := by
  have hF : 0 < s.cfgF.toNat := by
    rcases Nat.eq_zero_or_pos s.cfgF.toNat with h0 | h0
    · exact absurd (BitVec.eq_of_toNat_eq (by simpa using h0)) h
    · exact h0
  have := Nat.mod_lt (s.head.toNat + 1) hF
  have := s.cfgF.isLt
  simp only [pushCode_head, BitVec.toNat_ofNat]
  omega

theorem pushCode_head_lt (c : RawCode) (s : State) (h : s.cfgF ≠ 0) : (pushCode c s).head < s.cfgF := by
  have hF : 0 < s.cfgF.toNat := by
    rcases Nat.eq_zero_or_pos s.cfgF.toNat with h0 | h0
    · exact absurd (BitVec.eq_of_toNat_eq (by simpa using h0)) h
    · exact h0
  rw [BitVec.lt_def, pushCode_head_toNat c s h]
  exact Nat.mod_lt _ hF

theorem medianOf_perm (F : Nat) {l m : List RawCode} (h : l.Perm m) : medianOf F l = medianOf F m := by
  unfold medianOf
  congr 1
  exact ((List.perm_insertionSort _ l).trans (h.trans (List.perm_insertionSort _ m).symm)).eq_of_pairwise'
    (List.pairwise_insertionSort _ l) (List.pairwise_insertionSort _ m)

/-- The ascending order of a list is the only ascending list with its values. -/
theorem insertionSort_eq_of_sorted {l m : List RawCode} (hp : m.Perm l) (hs : m.Pairwise (· ≤ ·)) : l.insertionSort (· ≤ ·) = m :=
  ((List.perm_insertionSort _ l).trans hp.symm).eq_of_pairwise' (List.pairwise_insertionSort _ l) hs

/-- `median()` is read off any ascending list of the window's values. -/
theorem medianOf_eq_of_sorted (F : Nat) {l m : List RawCode} (hp : m.Perm l) (hs : m.Pairwise (· ≤ ·)) :
    medianOf F l = m.getD (F / 2) Config.neutral := by
  unfold medianOf
  rw [insertionSort_eq_of_sorted hp hs]

/-! ### The detector -/

/-- Every effect a sample can have while capture is enabled (40_capture.md R100): the fields it may change, and nothing else. -/
theorem captureSample_eq (v : Interval) (s : State) :
    captureSample v s =
      { s with
        active := (captureSample v s).active
        wpos := (captureSample v s).wpos
        capState := (captureSample v s).capState
        sealedLen := (captureSample v s).sealedLen } := by
  unfold captureSample
  split <;> (try split) <;> rfl

/-- The element a sample writes: 0 in `IDLE`, else `wpos`. -/
theorem captureSample_active (v : Interval) (s : State) :
    (captureSample v s).active = if s.capState = .idle then s.active.set 0 v else s.active.set s.wpos.val v s.wpos.isLt := by
  unfold captureSample
  split <;> (try split) <;> simp_all

/-- Every effect the stop condition can have while capture is enabled (40_capture.md R105). -/
theorem captureLongPulse_eq (s : State) :
    captureLongPulse s =
      { s with
        wpos := (captureLongPulse s).wpos
        capState := (captureLongPulse s).capState
        sealedLen := (captureLongPulse s).sealedLen } := by
  unfold captureLongPulse
  split <;> (try split) <;> rfl

/-! ### The request -/

/-- Every effect `consumeRequest` can have (42_decode.md R130): it is frozen, a failure or a success. -/
theorem consumeRequest_cases (s : State) :
    (∃ k, s.fsm = .faulted k ∧ consumeRequest s = { s with pending := false }) ∨
      (∃ k, s.fsm = .running ∧ snapshotVerdict s.snapLen s.snapshot = .failure k ∧
        consumeRequest s = decodeFails k { s with pending := false }) ∨
      (∃ c, s.fsm = .running ∧ snapshotVerdict s.snapLen s.snapshot = .success c ∧
        consumeRequest s = decodeSucceeds c { s with pending := false }) := by
  unfold consumeRequest
  split
  · next k h => exact .inl ⟨k, h, rfl⟩
  · next h =>
    rcases applyVerdict_cases (snapshotVerdict s.snapLen s.snapshot) { s with pending := false } with ⟨k, hv, he⟩ | ⟨c, hv, he⟩
    · exact .inr (.inl ⟨k, h, hv, he⟩)
    · exact .inr (.inr ⟨c, h, hv, he⟩)

/-! ### Reset -/

/-- `INIT` field by field (10_state.md R34). -/
theorem resetState_eq (a r : Bool) (f : BitVec 8) (l : BitVec 16) (s : State) :
    resetState a r f l s =
      { s with
        cfgF := f, cfgLIMIT := l, cfgRR := r, running := a
        capState := .idle, wpos := 0, sealedLen := 0, active := freeBuffer s.freeDraws
        snapshot := freeBuffer (s.freeDraws + 14), snapLen := 0, pending := false
        window := List.replicate f.toNat Config.neutral, head := 0
        consecutive := 0, errorcount := 0, seenValid := false, fsm := .running
        initialised := true, freeDraws := s.freeDraws + 28 } := rfl

end Sys2Proof.Machine
end

