-- ==== Sys2Proof/Laws/Schedule.lean ====
section
/-! SUPPORT. What fetching the next operation can do: it takes a presented word or a recorded turn away, keeps count of what the free
choice passes over, and nothing else. -/

namespace Sys2Proof.Machine

/-- Every way an agent moves: the word it performs and the state it is performed in. -/
theorem agentWord_cases {a : Agent} {s t : State} {o : Option OpWord} (h : agentWord a s = (o, t)) :
    (o = none ∧ t = s ∧ agentReady s a = false) ∨
      (∃ w, a = .outside ∧ o = some w ∧ s.inputs = w :: t.inputs ∧ t = { s with inputs := t.inputs }) ∨
      (a = .frameAssembler ∧ o = some (encode .handoff) ∧ handoffEnabled s = true ∧ t = s) ∨
      (a = .decoder ∧ o = some (encode .decode) ∧ decodeEnabled s = true ∧ t = s) := by
  cases a with
  | outside =>
    rcases hi : s.inputs with _ | ⟨w, ws⟩
    · simp only [agentWord, hi, Prod.mk.injEq] at h
      obtain ⟨rfl, rfl⟩ := h
      exact .inl ⟨rfl, rfl, by simp [agentReady, hi]⟩
    · simp only [agentWord, hi, Prod.mk.injEq] at h
      obtain ⟨rfl, rfl⟩ := h
      exact .inr (.inl ⟨w, rfl, rfl, rfl, rfl⟩)
  | frameAssembler =>
    by_cases hg : handoffEnabled s = true
    · simp only [agentWord, hg, if_true, Prod.mk.injEq] at h
      exact .inr (.inr (.inl ⟨rfl, h.1.symm, hg, h.2.symm⟩))
    · simp only [agentWord, hg, if_false, Prod.mk.injEq, Bool.false_eq_true] at h
      exact .inl ⟨h.1.symm, h.2.symm, by simpa [agentReady] using hg⟩
  | decoder =>
    by_cases hg : decodeEnabled s = true
    · simp only [agentWord, hg, if_true, Prod.mk.injEq] at h
      exact .inr (.inr (.inr ⟨rfl, h.1.symm, hg, h.2.symm⟩))
    · simp only [agentWord, hg, if_false, Prod.mk.injEq, Bool.false_eq_true] at h
      exact .inl ⟨h.1.symm, h.2.symm, by simpa [agentReady] using hg⟩

theorem mem_readyAgents {s : State} {a : Agent} : a ∈ readyAgents s ↔ agentReady s a = true := by
  cases a <;> simp [readyAgents]

/-- The freely chosen agent is one of those that are ready. -/
theorem freeAgent_mem {ready : List Agent} (h : ready ≠ []) (n : Nat) : freeAgent ready n ∈ ready := by
  have hl : Config.freeChoice n % ready.length < ready.length := Nat.mod_lt _ (List.length_pos_of_ne_nil h)
  unfold freeAgent
  split
  · exact List.mem_singleton_self _
  · rw [List.getD_eq_getElem _ _ hl]
    exact List.getElem_mem hl

theorem overdue_ready {s : State} {a : Agent} (h : overdue s a = true) : a ∈ readyAgents s := by
  rw [mem_readyAgents]
  cases a
  · cases h
  · exact (Bool.and_eq_true_iff.mp h).1
  · exact (Bool.and_eq_true_iff.mp h).1

/-- A candidate can move, and is overdue if any operation is. -/
theorem mem_candidates {s : State} {a : Agent} :
    a ∈ candidates s ↔ a ∈ readyAgents s ∧ ((∃ b, overdue s b = true) → overdue s a = true) := by
  unfold candidates
  split
  · rename_i h
    have none_late : ¬ ∃ b, overdue s b = true := fun ⟨b, hb⟩ => by
      have := List.mem_filter.mpr ⟨overdue_ready hb, hb⟩
      rw [h] at this
      cases this
    exact ⟨fun ha => ⟨ha, fun hb => absurd hb none_late⟩, fun ha => ha.1⟩
  · rename_i h
    rw [List.mem_filter]
    refine and_congr_right fun _ => ⟨fun ha _ => ha, fun ha => ha ?_⟩
    obtain ⟨b, hb⟩ := List.exists_mem_of_ne_nil _ h
    exact ⟨b, (List.mem_filter.mp hb).2⟩

theorem candidates_ne_nil {s : State} (h : readyAgents s ≠ []) : candidates s ≠ [] := by
  unfold candidates
  split
  · exact h
  · assumption

/-- Every way the next agent is found: a recorded turn, nobody ready, or a ready agent, an overdue one if any operation is. -/
theorem nextAgent_cases (s : State) :
    (∃ a rest, s.turns = a :: rest ∧ nextAgent s = some a) ∨
      (s.turns = [] ∧ readyAgents s = [] ∧ nextAgent s = none) ∨
      (∃ a, s.turns = [] ∧ a ∈ candidates s ∧ nextAgent s = some a) := by
  rcases ht : s.turns with _ | ⟨a, rest⟩
  · rcases hr : readyAgents s with _ | ⟨a, _ | ⟨b, rest⟩⟩
    · exact .inr (.inl ⟨rfl, rfl, by simp only [nextAgent, ht, hr]⟩)
    · refine .inr (.inr ⟨a, rfl, mem_candidates.mpr ⟨by simp [hr], fun ⟨b, hb⟩ => ?_⟩, by simp only [nextAgent, ht, hr]⟩)
      have hm := overdue_ready hb
      rw [hr, List.mem_singleton] at hm
      rwa [← hm]
    · exact .inr (.inr ⟨freeAgent (candidates s) s.freeDraws, rfl, freeAgent_mem (candidates_ne_nil (by simp [hr])) _,
        by simp only [nextAgent, ht, hr]⟩)
  · exact .inl ⟨a, rest, rfl, by simp only [nextAgent, ht]⟩

@[simp] theorem agentReady_passOver (a b : Agent) (s : State) : agentReady (passOver a s) b = agentReady s b := by
  cases b <;> rfl

theorem fetchOp_of_nextAgent {s : State} {a : Agent} (h : nextAgent s = some a) : fetchOp s = agentWord a (takeTurn a s) := by
  simp only [fetchOp, h]

/-- Every way the next operation is found: a recorded turn, nobody ready, or a ready agent by free choice. -/
theorem fetchOp_cases (s : State) :
    (∃ a rest, s.turns = a :: rest ∧ fetchOp s = agentWord a { s with turns := rest }) ∨
      (s.turns = [] ∧ readyAgents s = [] ∧ fetchOp s = (none, s)) ∨
      (∃ a, s.turns = [] ∧ a ∈ candidates s ∧ fetchOp s = agentWord a (passOver a s)) := by
  rcases nextAgent_cases s with ⟨a, rest, ht, h⟩ | ⟨ht, hr, h⟩ | ⟨a, ht, ha, h⟩
  · exact .inl ⟨a, rest, ht, by simp only [fetchOp, h, takeTurn, ht]⟩
  · exact .inr (.inl ⟨ht, hr, by simp only [fetchOp, h]⟩)
  · exact .inr (.inr ⟨a, ht, ha, by simp only [fetchOp, h, takeTurn, ht]⟩)

/-- Fetching changes only the presented words and the model's own fields of the schedule. -/
theorem fetchOp_frame {s t : State} {o : Option OpWord} (h : fetchOp s = (o, t)) :
    t = { s with
      inputs := t.inputs, turns := t.turns, handoffWait := t.handoffWait, decodeWait := t.decodeWait, freeDraws := t.freeDraws } := by
  have key : ∀ (a : Agent) (u : State), agentWord a u = (o, t) → t = { u with inputs := t.inputs } := by
    intro a u hu
    rcases agentWord_cases hu with ⟨-, rfl, -⟩ | ⟨w, -, -, -, ht⟩ | ⟨-, -, -, rfl⟩ | ⟨-, -, -, rfl⟩
    · rfl
    · exact ht
    · rfl
    · rfl
  rcases fetchOp_cases s with ⟨a, rest, -, he⟩ | ⟨-, -, he⟩ | ⟨a, -, -, he⟩
  · rw [he] at h
    have := key _ _ h
    rw [this]
  · rw [he] at h
    obtain ⟨-, rfl⟩ := Prod.mk.injEq .. ▸ h
    rfl
  · rw [he] at h
    have := key _ _ h
    rw [this, passOver]

/-- A step performs the word that was fetched, or changes nothing but the schedule. -/
theorem step_cases (s : State) :
    (∃ w t, fetchOp s = (some w, t) ∧ step s = performWord w t) ∨ (∃ t, fetchOp s = (none, t) ∧ step s = .next t) := by
  rcases hf : fetchOp s with ⟨_ | w, t⟩
  · exact .inr ⟨t, rfl, by simp only [step, hf]⟩
  · exact .inl ⟨w, t, rfl, by simp only [step, hf]⟩

/-- Performing a word is the instruction it decodes to, or the answer `REFUSED`. -/
theorem performWord_cases (w : OpWord) (s : State) :
    (∃ i, decodeWord w = .ok i ∧ performWord w s = exec i s) ∨ (∃ e, decodeWord w = .error e ∧ performWord w s = refuseWord s) := by
  rcases hd : decodeWord w with e | i
  · exact .inr ⟨e, rfl, by simp only [performWord, hd]⟩
  · exact .inl ⟨i, rfl, by simp only [performWord, hd]⟩

end Sys2Proof.Machine
end

