-- ==== Sys2Proof/Laws/Exec.lean ====
section
/-! SUPPORT. Inversion of `exec`: for each instruction, exactly when it answers a next state and which. One lemma per constructor. -/

namespace Sys2Proof.Machine

theorem exec_init_eq_next_iff {a r : Bool} {f : BitVec 8} {l : BitVec 16} {s t : State} :
    exec (.init a r f l) s = .next t ↔
      (f = 0 ∨ l = 0) ∧ s.initialised = true ∧ t = respond .refused 0 s ∨
        (f ≠ 0 ∧ l ≠ 0) ∧ t = respond .ok 0 (resetState a r f l s) := by
  simp only [exec, execInit]
  split
  · next h =>
    rw [refuseWord, afterInit_eq_next_iff]
    refine ⟨fun ⟨hi, ht⟩ => .inl ⟨h, hi, ht.symm⟩, ?_⟩
    rintro (⟨-, hi, ht⟩ | ⟨⟨hf, hl⟩, -⟩)
    · exact ⟨hi, ht.symm⟩
    · exact absurd h (not_or.mpr ⟨hf, hl⟩)
  · next h =>
    rw [acknowledge_eq]
    refine ⟨fun e => .inr ⟨not_or.mp h, (Host.Outcome.next.inj e).symm⟩, ?_⟩
    rintro (⟨h', -⟩ | ⟨-, ht⟩)
    · exact absurd h' h
    · rw [ht]

theorem exec_start_eq_next_iff {s t : State} :
    exec .start s = .next t ↔
      s.initialised = true ∧
        t = respond .ok 0
          (if s.running then s
          else if s.cfgRR then restartReset (detectorIdle { s with running := true })
          else detectorIdle { s with running := true }) := by
  simp only [exec, execStart, afterInit_eq_next_iff, acknowledge_eq, eq_comm (a := t)]

theorem exec_stop_eq_next_iff {s t : State} :
    exec .stop s = .next t ↔
      s.initialised = true ∧ t = respond .ok 0 (if s.running then detectorIdle { s with running := false } else s) := by
  simp only [exec, execStop, afterInit_eq_next_iff, acknowledge_eq, eq_comm (a := t)]

/-- The answer of `RDTEMP` (45_host.md R196). -/
theorem exec_rdtemp_eq_next_iff {s t : State} :
    exec .rdtemp s = .next t ↔
      s.initialised = true ∧
        (s.running = false ∧ t = respond .notRunning 0 s ∨
          (∃ k, s.running = true ∧ s.fsm = .faulted k ∧ t = respond (kindStatus k) 0 s) ∨
          s.running = true ∧ s.fsm = .running ∧ t = respond .ok ((medianCode s).setWidth 32) s) := by
  simp only [exec, execRdtemp, afterInit_eq_next_iff]
  refine and_congr_right fun _ => ?_
  cases hr : s.running
  · simp [eq_comm]
  · cases hf : s.fsm <;> simp [eq_comm]

theorem exec_rderr_eq_next_iff {s t : State} :
    exec .rderr s = .next t ↔
      s.initialised = true ∧ t = if s.seenValid then respond .ok s.errorcount s else respond .noReading 0 s := by
  simp only [exec, execRderr, afterInit_eq_next_iff, eq_comm (a := t)]

theorem exec_edge_eq_next_iff {v : Interval} {s t : State} :
    exec (.edge v) s = .next t ↔ s.initialised = true ∧ t = respond .ok 0 (if s.running then captureSample v s else s) := by
  simp only [exec, execEdge, afterInit_eq_next_iff, acknowledge_eq, eq_comm (a := t)]

theorem exec_longp_eq_next_iff {s t : State} :
    exec .longp s = .next t ↔ s.initialised = true ∧ t = respond .ok 0 (if s.running then captureLongPulse s else s) := by
  simp only [exec, execLongp, afterInit_eq_next_iff, acknowledge_eq, eq_comm (a := t)]

theorem exec_handoff_eq_next_iff {s t : State} :
    exec .handoff s = .next t ↔
      s.initialised = true ∧ t = if s.capState = .complete then respond .ok 0 (handOver s) else respond .notEnabled 0 s := by
  simp only [exec, execHandoff, afterInit_eq_next_iff, acknowledge_eq, eq_comm (a := t)]

theorem exec_decode_eq_next_iff {s t : State} :
    exec .decode s = .next t ↔
      s.initialised = true ∧ t = if s.pending then respond .ok 0 (consumeRequest s) else respond .notEnabled 0 s := by
  simp only [exec, execDecode, afterInit_eq_next_iff, acknowledge_eq, eq_comm (a := t)]

end Sys2Proof.Machine
end

