-- ==== Sys2Proof/Laws/PerInstr.lean ====
section
/-! SUPPORT. For every instruction as syntax: the word it is encoded as matches its own row of spec/opcode_table.json, the column "match" under
the column "mask". One lemma per constructor. -/

namespace Sys2Proof.Laws.TableRow

def Statement (i : Instr) : Prop := encode i &&& tableMask i = tableMatch i

theorem init (start0 rr : Bool) (f : BitVec 8) (l : BitVec 16) : Statement (.init start0 rr f l) := by
  unfold Statement encode tableMask tableMatch
  apply BitVec.eq_of_getLsbD_eq
  intro i hi
  rw [BitVec.getLsbD_and, getLsbD_opWord, getLsbD_operandI]
  interval_cases i <;> simp

theorem start : Statement .start := by
  unfold Statement
  decide

theorem stop : Statement .stop := by
  unfold Statement
  decide

theorem rdtemp : Statement .rdtemp := by
  unfold Statement
  decide

theorem rderr : Statement .rderr := by
  unfold Statement
  decide

theorem edge (v : Interval) : Statement (.edge v) := by
  unfold Statement encode tableMask tableMatch
  apply BitVec.eq_of_getLsbD_eq
  intro i hi
  rw [BitVec.getLsbD_and, getLsbD_opWord]
  interval_cases i <;> simp

theorem longp : Statement .longp := by
  unfold Statement
  decide

theorem handoff : Statement .handoff := by
  unfold Statement
  decide

theorem decode : Statement .decode := by
  unfold Statement
  decide

end Sys2Proof.Laws.TableRow
end

