-- ==== Sys2Proof/Tests/Slice0.lean ====
section
/-! SUPPORT. Tests of the model on the vectors of 95_test_vectors.md (named in each comment), and a witness for every statement that has
hypotheses. Every expected value is the spec's. -/

namespace Sys2Proof.Tests

open Sys2Proof.Machine

/-! ### Small states -/

/-- The state an outcome goes on to, if it goes on. -/
def after (o : Host.Outcome State Fault Refusal) : Option State :=
  match o with
  | .next t => some t
  | .fault _ => none
  | .refused _ => none

/-- Why an outcome stops, if it does. -/
def stopReason (o : Host.Outcome State Fault Refusal) : Option Refusal :=
  match o with
  | .next _ => none
  | .fault _ => none
  | .refused r => some r

/-- One step that performs the word `w`. -/
def stepWord (w : Nat) (s : State) : Option State := after (step (s.withFetchWord 36 w))

/-- The answer of one step that performs the word `w`, as a response word. -/
def answer (w : Nat) (s : State) : Option RspWord := (stepWord w s).map fun t => responseWord t.response

/-- The frame of 1000 (V20). -/
def frame1000 : Buffer := #v[64, 32, 32, 32, 96, 32, 96, 96, 96, 96, 96, 32, 32, 96]

/-- A frame is sealed and waits (V19m). -/
def sealedState : State := { State.reset with capState := .complete, sealedLen := 14, active := frame1000 }

/-- A transmission is six samples in (V72, V74). -/
def capturingState : State := { State.reset with capState := .capturing, wpos := 6 }

/-- A full frame waits for the decoder (V20). -/
def pendingState : State := { State.reset with pending := true, snapshot := frame1000, snapLen := 14 }

/-- Capture disabled, three readings in the window (V71). -/
def stoppedState : State := { State.reset with running := false, window := [1000, 1200, 1100], seenValid := true }

/-- Faulted after three failures (V76, V78). -/
def faultedState (k : FaultKind) : State :=
  { State.reset with fsm := .faulted k, consecutive := 3, errorcount := 3, seenValid := true, window := [7, 8, 9], head := 1, pending := true }

/-- Before the first `INIT` (R260). -/
def uninitialised : State := { State.reset with initialised := false }

/-! ### Well-formedness and decoding -/

/-- An ill-formed `INIT` for each check: `f` = 0 (V5), `l` = 0 (V6); the smallest and the largest legal one pass (V2, V3). -/
theorem test_wellFormed :
    (Instr.init true false 0 3).wellFormed = false ∧ (Instr.init true false 3 0).wellFormed = false ∧
    (Instr.init false false 1 1).wellFormed = true ∧ (Instr.init true true 255 65535).wellFormed = true := by decide

/-- Words written out bit by bit from R80 and R82: opcode, then the fields (V1, V4, R192 to R198). -/
theorem test_decode_host :
    decodeWord 0b0001_1_0_000000_00000011_0000000000000011 = .ok (.init true false 3 3) ∧
    decodeWord 0b0001_0_1_000000_00000101_0000000001100100 = .ok (.init false true 5 100) ∧
    decodeWord 0b0010_00000000000000000000000000000000 = .ok .start ∧
    decodeWord 0b0011_00000000000000000000000000000000 = .ok .stop ∧
    decodeWord 0b0100_00000000000000000000000000000000 = .ok .rdtemp ∧
    decodeWord 0b0101_00000000000000000000000000000000 = .ok .rderr := by decide

/-- Words written out bit by bit from R80 and R82 (V15, V16, R105, R120, R130). -/
theorem test_decode_block :
    decodeWord 0b1000_00000000000000000000000000111100 = .ok (.edge 60) ∧
    decodeWord 0b1000_11111111111111111111111111111111 = .ok (.edge 4294967295) ∧
    decodeWord 0b1001_00000000000000000000000000000000 = .ok .longp ∧
    decodeWord 0b1010_00000000000000000000000000000000 = .ok .handoff ∧
    decodeWord 0b1011_00000000000000000000000000000000 = .ok .decode := by decide

/-- V5 to V14: every reason to refuse a word. -/
theorem test_decode_refuses :
    decodeWord 0x180000003 = .error .zeroWindow ∧ decodeWord 0x180030000 = .error .zeroLimit ∧
    decodeWord 0x181030003 = .error .reservedInitBits ∧ decodeWord 0x1A0030003 = .error .reservedInitBits ∧
    [0x000000000, 0x600000000, 0x700000000, 0xC00000000, 0xD00000000, 0xE00000000, 0xF00000000].map decodeWord =
      List.replicate 7 (.error .reservedOpcode) ∧
    [0x200000001, 0x4FFFFFFFF, 0x900000001, 0xA00000010, 0xB80000000].map decodeWord =
      List.replicate 5 (.error .nonzeroOperand) := by decide

/-- The interface of the opcode table: the bits above `nbits` are 0, and the longest word fits. -/
theorem test_decodeTableWord :
    decodeTableWord 36 0x180030003 = some (.init true false 3 3) ∧ decodeTableWord 40 0x0A00000000 = some .handoff ∧
    decodeTableWord 36 0x100000000 = none ∧ decodeTableWord 40 0x1A00000000 = none := by decide

/-- R80, R89, R91: `FRAME 1100` with the samples of 95_test_vectors.md, as hexadecimal words; `FRAMERUN` is 16 words. -/
theorem test_expandFrame :
    (expandFrame 64 32 96 1100).map encode =
      [0x800000040, 0x800000060, 0x800000020, 0x800000060, 0x800000060, 0x800000020, 0x800000020,
        0x800000060, 0x800000060, 0x800000020, 0x800000020, 0x800000060, 0x800000060, 0x800000020] ∧
    (expandFrameRun 64 32 96 1100).length = 16 ∧ hexDigits 0x4FFFFFFFF = [4, 15, 15, 15, 15, 15, 15, 15, 15] := by decide

/-- R90: assembler lines as P1, P3 and P5 write them. -/
theorem test_assemblerLine :
    assemblerLine (.init true false 3 3) = "INIT s=1 r=0 f=3 l=3" ∧ assemblerLine (.edge 64) = "EDGE 64" ∧
    assemblerLine .longp = "LONGP" := by decide

/-! ### One step per operation -/

/-- V70: `INIT` resets from a faulted state with a pending request. -/
theorem test_init_resets :
    (stepWord 0x100020004 (faultedState .lowRange)).map (fun t => (t.cfgF, t.cfgLIMIT, t.window, t.errorcount, t.fsm)) =
      some (2, 4, [0, 0], 0, .running) := by decide

/-- V5: a refused `INIT` leaves the configuration. -/
theorem test_init_refused :
    stepWord 0x180000003 (faultedState .lowRange) = some { faultedState .lowRange with response := ⟨.refused, 0⟩ } := by decide

/-- V71: `START` with `RR` = 0 keeps the window. -/
theorem test_start_continues : stepWord 0x200000000 stoppedState = some { stoppedState with running := true, response := ⟨.ok, 0⟩ } := by
  decide

/-- V78: `START` from stopped with `RR` = 1. -/
theorem test_start_restarts :
    stepWord 0x200000000 { faultedState .wrongParity with running := false, cfgRR := true } =
      some { faultedState .wrongParity with
        cfgRR := true, window := [0, 0, 0], head := 0, consecutive := 0, fsm := .running, response := ⟨.ok, 0⟩ } := by decide

/-- V74: `STOP` drops the transmission in progress and keeps the request. -/
theorem test_stop_midframe :
    stepWord 0x300000000 { capturingState with pending := true } =
      some { capturingState with running := false, capState := .idle, wpos := 0, pending := true, response := ⟨.ok, 0⟩ } := by decide

/-- V81: `STOP` drops a sealed frame. -/
theorem test_stop_sealed :
    (stepWord 0x300000000 sealedState).map (fun t => (t.capState, t.sealedLen, t.running)) = some (.idle, 0, false) := by decide

/-- V77: a retained reading. -/
theorem test_rdtemp_retained : answer 0x400000000 { stoppedState with running := true, consecutive := 2 } = some 0x00000044C := by decide

/-- V75, V76: a stopped machine hides its fault, a running one reports it. -/
theorem test_rdtemp_faulted :
    answer 0x400000000 { faultedState .highRange with running := false } = some 0x100000000 ∧
    answer 0x400000000 (faultedState .highRange) = some 0x400000000 := by decide

/-- V79: no reading yet. -/
theorem test_rderr_noReading : answer 0x500000000 { State.reset with errorcount := 3 } = some 0x500000000 := by decide

/-- V80: the count, also while stopped. -/
theorem test_rderr_stopped : answer 0x500000000 { stoppedState with errorcount := 3 } = some 0x000000003 := by decide

/-- V19a: the fourteenth sample seals the frame. -/
theorem test_edge_seals :
    (stepWord 0x800000060 { State.reset with capState := .capturing, wpos := 13 }).map
      (fun t => (t.active[13], t.sealedLen, t.wpos, t.capState)) = some (96, 14, 0, .complete) := by decide

/-- V19c: the fourteenth sample over a sealed frame is an overrun. -/
theorem test_edge_overruns :
    (stepWord 0x800000007 { sealedState with wpos := 13 }).map (fun t => (t.active[13], t.sealedLen, t.wpos, t.capState)) =
      some (7, 0, 0, .complete) := by decide

/-- V19g: a long pulse after five samples. -/
theorem test_longp_seals :
    (stepWord 0x900000000 { State.reset with capState := .capturing, wpos := 5 }).map (fun t => (t.sealedLen, t.wpos, t.capState)) =
      some (5, 0, .complete) := by decide

/-- V19k: a long pulse four samples into a transmission over a sealed frame. -/
theorem test_longp_overruns :
    (stepWord 0x900000000 { sealedState with wpos := 4 }).map (fun t => (t.sealedLen, t.wpos, t.capState)) = some (0, 0, .complete) := by
  decide

/-- V19o: a hand-off of a torn frame replaces a waiting snapshot. -/
theorem test_handoff_replaces :
    stepWord 0xA00000000 { sealedState with wpos := 3, pending := true, snapLen := 5 } =
      some { sealedState with
        sealedLen := 0, capState := .idle, snapshot := frame1000, snapLen := 14, pending := true, response := ⟨.ok, 0⟩ } := by decide

/-- V19p: nothing to hand off. -/
theorem test_handoff_notEnabled :
    stepWord 0xA00000000 capturingState = some { capturingState with response := ⟨.notEnabled, 0⟩ } := by decide

/-- V20: a valid frame is pushed. -/
theorem test_decode_success :
    stepWord 0xB00000000 pendingState =
      some { pendingState with pending := false, window := [1000, 0, 0], head := 1, seenValid := true, response := ⟨.ok, 0⟩ } := by decide

/-- V60 with V37's short snapshot: the failure that reaches `LIMIT`. -/
theorem test_decode_faults :
    stepWord 0xB00000000 { pendingState with snapLen := 5, consecutive := 2, errorcount := 2 } =
      some { pendingState with
        snapLen := 5, pending := false, consecutive := 3, errorcount := 3, fsm := .faulted .wrongParity, response := ⟨.ok, 0⟩ } := by decide

/-- R260: before the first `INIT` another word has no meaning, and an `INIT` is accepted. -/
theorem test_beforeInit :
    stopReason (performWord 0x400000000 uninitialised) = some .beforeInit ∧
    (after (performWord 0x180030003 uninitialised)).map State.initialised = some true := by decide

/-- R66: with nothing presented, the frame assembler serves the sealed frame by itself. -/
theorem test_internal_handoff :
    (after (step sealedState)).map (fun t => (t.pending, t.snapshot, t.capState)) = some (true, frame1000, .idle) := by decide

/-- R67: an enabled operation that may be passed over no longer moves before a waiting word, and what is passed over is kept count of. -/
theorem test_overdue_first :
    nextAgent { sealedState with handoffWait := some 0, inputs := [0x800000007] } = some .frameAssembler ∧
    (passOver .outside { sealedState with handoffWait := some 2 }).handoffWait = some 1 ∧
    (passOver .frameAssembler { sealedState with handoffWait := some 2 }).handoffWait = none := by decide

/-! ### Operations on values -/

/-- V21 to V27: data bits, with the samples of the vectors. -/
theorem test_verdict_codes :
    snapshotVerdict 14 #v[64, 96, 32, 96, 96, 32, 32, 96, 96, 32, 32, 96, 96, 32] = .success 1100 ∧
    snapshotVerdict 14 #v[64, 32, 96, 32, 32, 96, 96, 96, 96, 32, 32, 96, 96, 32] = .success 1200 ∧
    snapshotVerdict 14 #v[64, 96, 96, 96, 96, 96, 96, 96, 32, 32, 96, 96, 96, 96] = .success 1 ∧
    snapshotVerdict 14 #v[64, 32, 32, 32, 32, 32, 32, 32, 96, 32, 32, 32, 32, 32] = .success 2046 ∧
    snapshotVerdict 14 #v[64, 96, 96, 32, 96, 96, 32, 96, 96, 96, 96, 96, 32, 32] = .success 292 ∧
    snapshotVerdict 14 #v[64, 96, 32, 96, 32, 96, 32, 96, 32, 96, 32, 96, 32, 96] = .success 1365 ∧
    snapshotVerdict 14 #v[64, 32, 96, 32, 96, 32, 96, 32, 96, 96, 96, 32, 96, 32] = .success 682 := by decide

/-- V29: the comparison is unsigned and a sample equal to the strobe is 0. -/
theorem test_verdict_unsigned :
    snapshotVerdict 14 #v[0x80000000, 0x80000000, 0x7FFFFFFF, 0x80000000, 0x80000000, 0x7FFFFFFF, 0x7FFFFFFF, 0x80000000, 0x80000000,
      0x7FFFFFFF, 0x7FFFFFFF, 0x80000000, 0x80000000, 0x7FFFFFFF] = .success 1100 := by decide

/-- V30, V31, V32 to V36, V37: the failures, in their order of priority. -/
theorem test_verdict_failures :
    snapshotVerdict 14 #v[64, 96, 96, 96, 96, 96, 96, 96, 96, 96, 96, 96, 96, 96] = .failure .lowRange ∧
    snapshotVerdict 14 #v[64, 32, 32, 32, 32, 32, 32, 32, 32, 96, 32, 32, 32, 32] = .failure .highRange ∧
    snapshotVerdict 14 #v[64, 32, 32, 96, 96, 32, 96, 96, 96, 96, 96, 32, 32, 96] = .failure .wrongParity ∧
    snapshotVerdict 14 #v[64, 32, 32, 32, 96, 32, 96, 96, 96, 96, 96, 32, 96, 96] = .failure .wrongParity ∧
    snapshotVerdict 14 #v[64, 32, 32, 32, 32, 32, 32, 32, 32, 32, 32, 32, 32, 32] = .failure .wrongParity ∧
    snapshotVerdict 13 frame1000 = .failure .wrongParity := by decide

/-- V50 to V54: medians of unfilled, odd and even windows. -/
theorem test_median :
    medianOf 3 [1000, 1200, 0] = 1000 ∧ medianOf 5 [500, 400, 300, 0, 0] = 300 ∧ medianOf 5 [600, 700, 300, 200, 100] = 300 ∧
    medianOf 2 [500, 400] = 500 ∧ medianOf 4 [5, 20, 30, 40] = 30 ∧ medianOf 1 [1100] = 1100 := by decide

/-- V51: two pushes past the end of a window of five. -/
theorem test_push_wraps :
    (fun t : State => (t.window, t.head)) (pushCode 700 (pushCode 600 { State.reset with cfgF := 5, window := [500, 400, 300, 200, 100] })) =
      ([600, 700, 300, 200, 100], 2) := by decide

/-- V65: `errorcount` saturates. -/
theorem test_errorcount_saturates :
    saturatingIncrement 0xFFFFFFFE = 0xFFFFFFFF ∧ saturatingIncrement 0xFFFFFFFF = 0xFFFFFFFF := by decide

/-- V66: the largest `LIMIT`, reached without wrapping. -/
theorem test_limit_maximum :
    (decodeFails .lowRange { State.reset with cfgLIMIT := 65535, consecutive := 65534 }).fsm = .faulted .lowRange ∧
    (decodeFails .lowRange { State.reset with cfgLIMIT := 65535, consecutive := 65533 }).fsm = .running := by decide

/-- V20, V23, S10: temperatures in degrees. -/
theorem test_temperature :
    temperature 1000 = 49530 / 2047 ∧ temperature 1 = -20400 / 2047 ∧ temperature 2046 = 122750 / 2047 := by
  rw [temperature, temperature, temperature, show (1000 : RawCode).toNat = 1000 from rfl, show (1 : RawCode).toNat = 1 from rfl,
    show (2046 : RawCode).toNat = 2046 from rfl]
  norm_num

/-! ### Witnesses: states and operands that meet the hypotheses of the statements -/

/-- The invariant holds of a state with a full frame pending. -/
theorem witness_Inv : pendingState.Inv where
  initialised := rfl
  windowNonempty := by decide
  limitPositive := by decide
  windowLength := rfl
  idleCursor := by decide
  capturingCursor := by decide
  stoppedIdle := by decide
  headInWindow := by decide
  windowCodes := by decide
  unseenNeutral := by decide
  belowLimit := by decide
  atLimit := nofun

/-- The invariant holds of a faulted state. -/
theorem witness_Inv_faulted (k : FaultKind) : (faultedState k).Inv where
  initialised := rfl
  windowNonempty := by change (3 : BitVec 8) ≠ 0; decide
  limitPositive := by change (3 : BitVec 16) ≠ 0; decide
  windowLength := rfl
  idleCursor := fun _ => ⟨rfl, rfl⟩
  capturingCursor := nofun
  stoppedIdle := nofun
  headInWindow := by change (1 : BitVec 8) < 3; decide
  windowCodes := by change ∀ c ∈ ([7, 8, 9] : List RawCode), c ≠ 2047; decide
  unseenNeutral := nofun
  belowLimit := nofun
  atLimit := fun _ _ => rfl

/-- The invariant holds in the middle of a transmission. -/
theorem witness_Inv_capturing : capturingState.Inv where
  initialised := rfl
  windowNonempty := by decide
  limitPositive := by decide
  windowLength := rfl
  idleCursor := by decide
  capturingCursor := by decide
  stoppedIdle := by decide
  headInWindow := by decide
  windowCodes := by decide
  unseenNeutral := by decide
  belowLimit := by decide
  atLimit := nofun

/-- DecodeOfEncodeIsInstruction, every constructor, the boundary operands. -/
theorem witness_wellFormed :
    ∀ i ∈ [Instr.init false false 1 1, .init true true 255 65535, .start, .stop, .rdtemp, .rderr, .edge 0, .edge 0xFFFFFFFF, .longp,
      .handoff, .decode], i.wellFormed = true := by decide

/-- EncodeOfDecodedWordIsWord, IllegalInitChangesNothing, RefusedWordsChangeNothing: a word that decodes, and one refused for each reason. -/
theorem witness_words :
    decodeWord 0x1C0FFFFFF = .ok (.init true true 255 65535) ∧ (0x181030003 : OpWord).toNat / 2 ^ 32 = 1 ∧
    (0x181030003 : OpWord).toNat / 2 ^ 24 % 2 ^ 6 ≠ 0 ∧ (0x180000003 : OpWord).toNat / 2 ^ 16 % 2 ^ 8 = 0 ∧
    (0x180030000 : OpWord).toNat % 2 ^ 16 = 0 ∧ State.reset.initialised = true ∧ State.reset.capState ≠ .complete ∧
    State.reset.pending = false ∧ isInit .handoff = false := by decide

/-- AnswersFollowTheStatusTable: every status is answered by some operation in some state. -/
theorem witness_statuses :
    (after (exec .rdtemp stoppedState)).map (·.response.status) = some .notRunning ∧
    (after (exec .rdtemp (faultedState .wrongParity))).map (·.response.status) = some .wrongParity ∧
    (after (exec .rdtemp (faultedState .lowRange))).map (·.response.status) = some .lowRange ∧
    (after (exec .rdtemp (faultedState .highRange))).map (·.response.status) = some .highRange ∧
    (after (exec .rderr State.reset)).map (·.response.status) = some .noReading ∧
    (after (exec .handoff State.reset)).map (·.response.status) = some .notEnabled ∧
    (after (exec .decode State.reset)).map (·.response.status) = some .notEnabled ∧
    (after (exec (.init true true 0 1) State.reset)).map (·.response.status) = some .refused ∧
    (after (exec .rdtemp State.reset)).map (·.response.status) = some .ok ∧
    (after (exec .rderr stoppedState)).map (·.response.status) = some .ok ∧
    (after (exec .decode pendingState)).map (·.response.status) = some .ok := by decide

/-- StepRunsTheDecodedInstruction: a fetched word that decodes, one that is refused, a recorded turn of the outside. -/
theorem witness_step :
    fetchOp (State.reset.withFetchWord 36 0x400000000) = (some 0x400000000, State.reset) ∧ decodeWord 0x400000000 = .ok .rdtemp ∧
    fetchOp (State.reset.withFetchWord 36 0x600000000) = (some 0x600000000, State.reset) ∧
    decodeWord 0x600000000 = .error .reservedOpcode ∧
    (State.reset.withFetchWord 36 0x400000000).turns = [.outside] ∧
    (State.reset.withFetchWord 36 0x400000000).inputs = [0x400000000] := by decide

/-- InternalOperationsHaveTheirGuards: every clause. -/
theorem witness_turns :
    ({ sealedState with turns := [.frameAssembler] } : State).turns = [.frameAssembler] ∧ sealedState.initialised = true ∧
    sealedState.capState = .complete ∧ capturingState.capState ≠ .complete ∧ pendingState.initialised = true ∧
    pendingState.pending = true ∧ capturingState.pending = false ∧
    ({ pendingState with turns := [.decoder] } : State).turns = [.decoder] ∧
    ({ pendingState with turns := [.outside], inputs := [0x400000000] } : State).inputs = [0x400000000] := by decide

/-- UnrecordedTurnsMoveSomeReadyAgent: no agent ready, one ready, all three ready. -/
theorem witness_ready :
    State.reset.turns = [] ∧ readyAgents State.reset = [] ∧ pendingState.turns = [] ∧ readyAgents pendingState = [.decoder] ∧
    readyAgents { sealedState with pending := true, inputs := [0x400000000] } = [.outside, .frameAssembler, .decoder] := by decide

/-- UnrecordedTurnsMoveSomeReadyAgent, its last clause: an overdue operation beside a waiting word. -/
theorem witness_overdue :
    overdue { sealedState with handoffWait := some 0, inputs := [0x800000007] } .frameAssembler = true ∧
    readyAgents { sealedState with handoffWait := some 0, inputs := [0x800000007] } = [.outside, .frameAssembler] := by decide

/-- FreeChoiceIsWeaklyFair: a `START` word before every step for ever, no move recorded; it leaves the state but for the count of draws. -/
theorem witness_FreeChoiceIsWeaklyFair :
    State.reset.initialised = true ∧ (∃ k, ∀ n, k ≤ n → (fun _ : Nat => ([] : List Agent)) n = []) ∧
    IsExecution (fun _ => [0x200000000]) (fun _ => []) (fun n => { State.reset with freeDraws := 2 * n }) :=
  ⟨rfl, ⟨0, fun _ _ => rfl⟩, fun _ => rfl⟩

/-- FairExecutionsServeWhatWaits: a `START` word and a recorded turn of the outside before every step for ever. -/
theorem witness_FairExecutionsServeWhatWaits :
    State.reset.initialised = true ∧ IsExecution (fun _ => [0x200000000]) (fun _ => [.outside]) (fun _ => State.reset) ∧
    WeaklyFair (fun _ => [0x200000000]) (fun _ => [.outside]) (fun _ => State.reset) := by
  refine ⟨rfl, fun _ => rfl, fun a ha n hr => ?_⟩
  cases a
  · exact absurd rfl ha
  · exact nomatch hr n (Nat.le_refl n)
  · exact nomatch hr n (Nat.le_refl n)

/-- RunsBeginWithInit, EveryWordCompletesAfterInit: a state before the first `INIT`, a legal `INIT` word and another word. -/
theorem witness_uninitialised :
    uninitialised.initialised = false ∧ decodeWord 0x1C0FFFFFF = .ok (.init true true 255 65535) ∧ decodeWord 0x400000000 = .ok .rdtemp ∧
    decodeWord 0x000000000 = .error .reservedOpcode ∧ pendingState.initialised = true := by decide

/-- StepKeepsInvariant: a state that meets the invariant steps (here the decoder, by itself). -/
theorem witness_StepKeepsInvariant : pendingState.Inv ∧ (after (step pendingState)).isSome = true := ⟨witness_Inv, by decide⟩

/-- InitEstablishesInvariant, InitResetsEveryField, InitKeepsThePresentedWords: the smallest and the largest operands;
IllegalInitOperandsChangeNothing: each illegal one. -/
theorem witness_init :
    State.reset.initialised = true ∧ ((0 : BitVec 8) = 0 ∨ (1 : BitVec 16) = 0) ∧ ((1 : BitVec 8) = 0 ∨ (0 : BitVec 16) = 0) ∧
    (1 : BitVec 8) ≠ 0 ∧ (1 : BitVec 16) ≠ 0 ∧ (255 : BitVec 8) ≠ 0 ∧ (65535 : BitVec 16) ≠ 0 ∧
    (after (exec .start stoppedState)).isSome = true ∧ isInit .start = false := by decide

/-- StartResumesFromIdle, StopDropsTheFrameInProgress: every case. -/
theorem witness_start_stop :
    State.reset.initialised = true ∧ State.reset.running = true ∧ stoppedState.initialised = true ∧ stoppedState.running = false ∧
    stoppedState.cfgRR = false ∧ ({ stoppedState with cfgRR := true } : State).cfgRR = true := by decide

/-- RdtempAnswersByPriority, RderrAnswersTheCount, RdtempReportsTheClassification, ReadsHaveNoSideEffect: every case. -/
theorem witness_reads :
    (faultedState .wrongParity).running = true ∧ (faultedState .wrongParity).fsm = .faulted .wrongParity ∧
    (faultedState .lowRange).fsm = .faulted .lowRange ∧ (faultedState .highRange).fsm = .faulted .highRange ∧
    stoppedState.running = false ∧ State.reset.running = true ∧ State.reset.fsm = .running ∧
    ([1000, 1100, 1200] : List RawCode).Perm stoppedState.window ∧ ([1000, 1100, 1200] : List RawCode).Pairwise (· ≤ ·) ∧
    ([1000, 1100, 1200] : List RawCode)[stoppedState.cfgF.toNat / 2]? = some 1100 ∧
    ({ stoppedState with running := true } : State).fsm = .running ∧
    State.reset.seenValid = false ∧ stoppedState.seenValid = true ∧ (after (exec .rdtemp stoppedState)).isSome = true := by decide

/-- StartAndStopAreIdempotent, StopThenStartContinuesOrRestarts. -/
theorem witness_restart :
    (after (exec .start stoppedState)).isSome = true ∧ (after (exec .stop capturingState)).isSome = true ∧
    capturingState.initialised = true ∧ capturingState.running = true ∧ capturingState.cfgRR = false ∧
    ({ capturingState with cfgRR := true } : State).running = true := by decide

/-- EdgeFollowsTheDetector, LongpFollowsTheDetector, EdgeWritesOneElement, StoppedCaptureIgnoresWords: every case, `wpos` at both ends. -/
theorem witness_capture :
    stoppedState.initialised = true ∧ stoppedState.running = false ∧ State.reset.running = true ∧ State.reset.capState = .idle ∧
    capturingState.capState = .capturing ∧ capturingState.wpos ≠ 13 ∧ ({ capturingState with wpos := 13 } : State).wpos = 13 ∧
    sealedState.running = true ∧ sealedState.capState = .complete ∧ sealedState.wpos = 0 ∧ sealedState.wpos ≠ 13 ∧
    ({ sealedState with wpos := 13 } : State).wpos = 13 ∧ ({ sealedState with wpos := 4 } : State).wpos ≠ 0 ∧
    (after (exec (.edge 7) sealedState)).isSome = true := by decide

/-- FramesSealByCountOrByLongPulse, LateHandoffCopiesATornFrame, OverrunCountsAsOneParityFailure, EagerFrameLeadsToSuccess. -/
theorem witness_frames :
    State.reset.initialised = true ∧ State.reset.running = true ∧ State.reset.capState = .idle ∧ State.reset.fsm = .running ∧
    (1 : Fin 14) ≠ 0 ∧ (13 : Fin 14) ≠ 0 ∧ (0 : Fin 14) < 13 ∧
    sealedState.initialised = true ∧ sealedState.running = true ∧ sealedState.capState = .complete ∧ sealedState.wpos = 0 ∧
    sealedState.fsm = .running ∧ (32 : Interval) < 64 ∧ (64 : Interval) ≤ 96 ∧ (64 : Interval) ≤ 64 ∧
    (1100 : RawCode) ≠ 0 ∧ (1100 : RawCode) ≠ 2047 := by decide

/-- HandoffServesTheFrame, ReplacedSnapshotLeavesNoTrace, DecodeFollowsTheRule, DecodeDoesNotReadRunning: every case. -/
theorem witness_handoff_decode :
    capturingState.initialised = true ∧ capturingState.capState ≠ .complete ∧ sealedState.capState = .complete ∧
    capturingState.pending = false ∧ (faultedState .lowRange).pending = true ∧ (faultedState .lowRange).fsm = .faulted .lowRange ∧
    pendingState.initialised = true ∧ pendingState.running = true ∧ pendingState.pending = true ∧ pendingState.fsm = .running ∧
    snapshotVerdict pendingState.snapLen pendingState.snapshot = .success 1000 ∧ snapshotVerdict 5 pendingState.snapshot = .failure .wrongParity ∧
    (after (exec .decode pendingState)).isSome = true := by decide

/-- SingleBitFlipIsRejected: V32 against V20. InvertedFrameFailsParity: V20 inverted. DegenerateThresholds: each clause. -/
theorem witness_bits :
    let flipped : Buffer := #v[64, 32, 32, 96, 96, 32, 96, 96, 96, 96, 96, 32, 32, 96]
    let inverted : Buffer := #v[64, 96, 96, 96, 32, 96, 32, 32, 32, 32, 32, 96, 96, 32]
    let zeros : Buffer := Vector.replicate 14 0
    let below : Buffer := #v[64, 32, 32, 32, 32, 32, 32, 32, 32, 32, 32, 32, 32, 32]
    (3 : Fin 14) ≠ 0 ∧ sampleBit frame1000 3 ≠ sampleBit flipped 3 ∧
    (∀ i : Fin 14, i ≠ 0 → i ≠ 3 → sampleBit frame1000 i = sampleBit flipped i) ∧
    lowParityOk (frameBits frame1000) = true ∧ highParityOk (frameBits frame1000) = true ∧
    (∀ i : Fin 14, i ≠ 0 → sampleBit inverted i = !sampleBit frame1000 i) ∧
    zeros[0] = 0 ∧ (∀ i : Fin 14, zeros[i] = zeros[0]) ∧ (∀ i : Fin 14, i ≠ 0 → below[i] < below[0]) := by decide

/-- WindowHoldsTheLastCodes, MedianBeforeTheWindowIsFull: a cleared window of three, as many pushes as it holds, and fewer. -/
theorem witness_window :
    State.reset.cfgF ≠ 0 ∧ State.reset.window.length = State.reset.cfgF.toNat ∧ State.reset.head < State.reset.cfgF ∧
    State.reset.cfgF.toNat ≤ ([1000, 1200, 1100] : List RawCode).length ∧
    State.reset.window = List.replicate State.reset.cfgF.toNat 0 ∧ State.reset.head = 0 ∧
    ([1000] : List RawCode).length < State.reset.cfgF.toNat ∧
    ([1000] : List RawCode).length ≤ State.reset.cfgF.toNat - 1 - State.reset.cfgF.toNat / 2 ∧
    ([1000, 1200] : List RawCode).length < State.reset.cfgF.toNat ∧
    State.reset.cfgF.toNat - 1 - State.reset.cfgF.toNat / 2 < ([1000, 1200] : List RawCode).length ∧
    ([1000, 1200] : List RawCode).Pairwise (· ≤ ·) := by decide

/-- MedianIsTheMiddleElement, RdtempReadsTheMedianOfTheLastCodes (S1). -/
theorem witness_median :
    pendingState.Inv ∧ ([0, 0, 0] : List RawCode).Perm pendingState.window ∧ ([0, 0, 0] : List RawCode).Pairwise (· ≤ ·) ∧
    pendingState.running = true ∧ pendingState.fsm = .running ∧
    pendingState.cfgF.toNat ≤ ([1000, 1200, 1100] : List RawCode).length ∧
    ([1000, 1100, 1200] : List RawCode).Perm (([1000, 1200, 1100] : List RawCode).drop (3 - pendingState.cfgF.toNat)) ∧
    ([1000, 1100, 1200] : List RawCode).Pairwise (· ≤ ·) ∧
    ([1000, 1100, 1200] : List RawCode)[pendingState.cfgF.toNat / 2]? = some 1100 := by
  refine ⟨witness_Inv, ?_⟩
  decide

/-- SustainedFailuresFault: fewer failures than `LIMIT`, and exactly `LIMIT` (S2). TemperatureMap: a code that is not the last, a running state. -/
theorem witness_failures :
    State.reset.fsm = .running ∧ State.reset.consecutive = 0 ∧ State.reset.cfgLIMIT ≠ 0 ∧
    ([.lowRange, .wrongParity] : List FaultKind).length < State.reset.cfgLIMIT.toNat ∧
    ([.lowRange, .highRange, .wrongParity] : List FaultKind).length = State.reset.cfgLIMIT.toNat ∧
    ([.lowRange, .highRange, .wrongParity] : List FaultKind).getLast? = some .wrongParity ∧ (2046 : RawCode) ≠ 2047 ∧
    State.reset.initialised = true ∧ State.reset.running = true := by decide

/-- FaultedIsTerminal: an operation that keeps the fault, an `INIT`, and a `START` that restarts. -/
theorem witness_FaultedIsTerminal :
    (faultedState .highRange).fsm = .faulted .highRange ∧ (after (exec .decode (faultedState .highRange))).isSome = true ∧
    isInit .decode = false ∧ restarts .decode (faultedState .highRange) = false ∧
    isInit (.init true false 1 1) = true ∧ (Instr.init true false 1 1).wellFormed = true ∧
    restarts .start { faultedState .highRange with running := false, cfgRR := true } = true := by decide

/-- OnlyDecodeEntersTheHardFault: a short frame at the last failure before `LIMIT`; ErrorcountIsMonotonic: at the maximum. -/
theorem witness_OnlyDecodeEntersTheHardFault :
    (after (exec .decode { pendingState with snapLen := 0, consecutive := 2 })).map State.fsm = some (.faulted .wrongParity) ∧
    ({ pendingState with snapLen := 0, consecutive := 2 } : State).fsm = .running ∧
    (after (exec .decode { pendingState with errorcount := 0xFFFFFFFF })).isSome = true ∧ isInit .decode = false := by decide

/-- The state of the first clause above meets the invariant. -/
theorem witness_Inv_lastFailure : ({ pendingState with snapLen := 0, consecutive := 2 } : State).Inv where
  initialised := rfl
  windowNonempty := by decide
  limitPositive := by decide
  windowLength := rfl
  idleCursor := by decide
  capturingCursor := by decide
  stoppedIdle := by decide
  headInWindow := by decide
  windowCodes := by decide
  unseenNeutral := by decide
  belowLimit := by decide
  atLimit := nofun

/-- FieldsAreWrittenByTheirOwners: every operation goes on somewhere, and the hypotheses of its clauses are met. -/
theorem witness_owners :
    (∀ i ∈ [Instr.init true false 1 1, .start, .stop, .rdtemp, .rderr, .edge 7, .longp, .handoff, .decode],
      (after (exec i pendingState)).isSome = true) ∧
    isInit .handoff = false ∧ (∀ v, Instr.handoff ≠ .edge v) ∧ Instr.handoff ≠ .start ∧ Instr.handoff ≠ .stop ∧ Instr.handoff ≠ .decode ∧
    restarts .handoff pendingState = false ∧ (after (exec .handoff State.reset)).map State.pending = some false :=
  ⟨by decide, rfl, nofun, by decide, by decide, by decide, by decide, by decide⟩

/-- UnspecifiedContentsNeverShow: right after an `INIT`, and two states that differ in an element the transmission has not reached. -/
theorem witness_UnspecifiedContentsNeverShow :
    State.reset.capState = .idle ∧ State.reset.snapLen ≠ 14 ∧
    AgreeButStale capturingState { capturingState with active := capturingState.active.set 6 99 } :=
  ⟨rfl, by decide, rfl, by decide, by decide, by decide⟩

/-- MachineComesToRest: a state with a word presented, a turn recorded and a frame pending. -/
theorem witness_MachineComesToRest :
    ({ pendingState with inputs := [0x400000000], turns := [.outside] } : State).Inv :=
  { witness_Inv with }

end Sys2Proof.Tests
end

/-! ## The state-dependent procedures, one equation a case -/

namespace Sys2Proof.Machine

/-! ### The moves of the detector, case by case (40_capture.md R100, R105) -/

theorem captureSample_of_idle {s : State} (v : Interval) (hc : s.capState = .idle) :
    captureSample v s = { writeActive 0 v s with wpos := 1, capState := .capturing } := by
  simp only [captureSample, hc]

theorem captureSample_of_capturing {s : State} (v : Interval) (hc : s.capState = .capturing) (hw : s.wpos ≠ 13) :
    captureSample v s = { writeActive s.wpos v s with wpos := s.wpos + 1 } := by
  simp only [captureSample, hc, if_neg hw]

theorem captureSample_of_capturing_last {s : State} (v : Interval) (hc : s.capState = .capturing) (hw : s.wpos = 13) :
    captureSample v s = sealFrame 14 (writeActive s.wpos v s) := by
  simp only [captureSample, hc, if_pos hw]

theorem captureSample_of_complete {s : State} (v : Interval) (hc : s.capState = .complete) (hw : s.wpos ≠ 13) :
    captureSample v s = { writeActive s.wpos v s with wpos := s.wpos + 1 } := by
  simp only [captureSample, hc, if_neg hw]

theorem captureSample_of_complete_last {s : State} (v : Interval) (hc : s.capState = .complete) (hw : s.wpos = 13) :
    captureSample v s = captureOverrun (writeActive s.wpos v s) := by
  simp only [captureSample, hc, if_pos hw]

theorem captureLongPulse_of_idle {s : State} (hc : s.capState = .idle) : captureLongPulse s = s := by
  simp only [captureLongPulse, hc]

theorem captureLongPulse_of_capturing {s : State} (hc : s.capState = .capturing) :
    captureLongPulse s = sealFrame s.wpos.castSucc s := by
  simp only [captureLongPulse, hc]

theorem captureLongPulse_of_complete_rest {s : State} (hc : s.capState = .complete) (hw : s.wpos = 0) : captureLongPulse s = s := by
  simp only [captureLongPulse, hc, if_pos hw]

theorem captureLongPulse_of_complete {s : State} (hc : s.capState = .complete) (hw : s.wpos ≠ 0) :
    captureLongPulse s = captureOverrun s := by
  simp only [captureLongPulse, hc, if_neg hw]

/-! ### A consumed request by the escalation state (42_decode.md R130, R140) -/

theorem consumeRequest_of_running {s : State} (hf : s.fsm = .running) :
    consumeRequest s = applyVerdict (snapshotVerdict s.snapLen s.snapshot) { s with pending := false } := by
  rw [consumeRequest, hf]

theorem consumeRequest_of_faulted {s : State} {k : FaultKind} (hf : s.fsm = .faulted k) :
    consumeRequest s = { s with pending := false } := by
  rw [consumeRequest, hf]

end Sys2Proof.Machine

/-! ## 10_state.md: who writes which field, and the error counter -/

namespace Sys2Proof.Machine

/-! ### What each instruction leaves unchanged (10_state.md R31, read by operation)

Each lemma lists the only fields its instruction may change; every other field is read off `s`. -/

theorem exec_start_frame {s t : State} (h : exec .start s = .next t) :
    t = { s with
      running := t.running, capState := t.capState, wpos := t.wpos, sealedLen := t.sealedLen
      window := t.window, head := t.head, consecutive := t.consecutive, fsm := t.fsm, response := t.response } := by
  obtain ⟨-, rfl⟩ := exec_start_eq_next_iff.mp h
  split
  · rfl
  · split <;> rfl

/-- Only the `START` that performs `restart_reset` writes the window and the escalation (45_host.md R193). -/
theorem exec_start_keepsWindow {s t : State} (h : exec .start s = .next t) (hr : restarts .start s = false) :
    t.window = s.window ∧ t.head = s.head ∧ t.consecutive = s.consecutive ∧ t.fsm = s.fsm := by
  obtain ⟨-, rfl⟩ := exec_start_eq_next_iff.mp h
  cases hrun : s.running with
  | true => exact ⟨rfl, rfl, rfl, rfl⟩
  | false =>
    have hrr : s.cfgRR = false := by simpa [restarts, hrun] using hr
    rw [hrr]
    exact ⟨rfl, rfl, rfl, rfl⟩

theorem exec_stop_frame {s t : State} (h : exec .stop s = .next t) :
    t = { s with
      running := t.running, capState := t.capState, wpos := t.wpos, sealedLen := t.sealedLen, response := t.response } := by
  obtain ⟨-, rfl⟩ := exec_stop_eq_next_iff.mp h
  split <;> rfl

theorem exec_rdtemp_frame {s t : State} (h : exec .rdtemp s = .next t) : t = { s with response := t.response } := by
  obtain ⟨-, ⟨-, rfl⟩ | ⟨k, -, -, rfl⟩ | ⟨-, -, rfl⟩⟩ := exec_rdtemp_eq_next_iff.mp h <;> rfl

theorem exec_rderr_frame {s t : State} (h : exec .rderr s = .next t) : t = { s with response := t.response } := by
  obtain ⟨-, rfl⟩ := exec_rderr_eq_next_iff.mp h
  split <;> rfl

theorem exec_edge_frame {v : Interval} {s t : State} (h : exec (.edge v) s = .next t) :
    t = { s with
      active := t.active, wpos := t.wpos, capState := t.capState, sealedLen := t.sealedLen, response := t.response } := by
  obtain ⟨-, rfl⟩ := exec_edge_eq_next_iff.mp h
  split
  · rw [captureSample_eq]; rfl
  · rfl

theorem exec_longp_frame {s t : State} (h : exec .longp s = .next t) :
    t = { s with wpos := t.wpos, capState := t.capState, sealedLen := t.sealedLen, response := t.response } := by
  obtain ⟨-, rfl⟩ := exec_longp_eq_next_iff.mp h
  split
  · rw [captureLongPulse_eq]; rfl
  · rfl

theorem exec_handoff_frame {s t : State} (h : exec .handoff s = .next t) :
    t = { s with
      wpos := t.wpos, capState := t.capState, sealedLen := t.sealedLen
      snapshot := t.snapshot, snapLen := t.snapLen, pending := t.pending, response := t.response } := by
  obtain ⟨-, rfl⟩ := exec_handoff_eq_next_iff.mp h
  split <;> rfl

/-- A request is consumed at the cost of the decode view alone. -/
theorem consumeRequest_frame (s : State) :
    consumeRequest s =
      { s with
        pending := false
        window := (consumeRequest s).window, head := (consumeRequest s).head
        consecutive := (consumeRequest s).consecutive, errorcount := (consumeRequest s).errorcount
        seenValid := (consumeRequest s).seenValid, fsm := (consumeRequest s).fsm } := by
  rcases consumeRequest_cases s with ⟨k, -, he⟩ | ⟨k, -, -, he⟩ | ⟨c, -, -, he⟩
  · rw [he]
  · rw [he, decodeFails_eq]
  · rw [he, decodeSucceeds_eq]

theorem exec_decode_frame {s t : State} (h : exec .decode s = .next t) :
    t = { s with
      pending := false, window := t.window, head := t.head, consecutive := t.consecutive
      errorcount := t.errorcount, seenValid := t.seenValid, fsm := t.fsm, response := t.response } := by
  obtain ⟨-, rfl⟩ := exec_decode_eq_next_iff.mp h
  cases hp : s.pending with
  | true => rw [if_pos rfl, consumeRequest_frame]; rfl
  | false =>
    rw [if_neg Bool.false_ne_true, ← hp]; rfl

theorem exec_handoff_pending {s t : State} (h : exec .handoff s = .next t) (ht : t.pending = false) :
    s.pending = false ∧ s.capState ≠ .complete := by
  obtain ⟨-, rfl⟩ := exec_handoff_eq_next_iff.mp h
  split at ht
  · cases ht
  · exact ⟨ht, ‹_›⟩

/-- Settles O50: each instruction's frame lemma names the only fields it writes. -/
theorem fieldsAreWrittenByTheirOwners : Obligations.FieldsAreWrittenByTheirOwners := by
  intro i s t h
  cases i with
  | init => simp [isInit]
  | start =>
    have hw := exec_start_keepsWindow h
    rw [exec_start_frame h]
    simpa [SameConfig, SamePorts, isInit] using hw
  | stop =>
    rw [exec_stop_frame h]
    simp [SameConfig, SamePorts]
  | rdtemp =>
    rw [exec_rdtemp_frame h]
    simp [SameConfig, SamePorts, SameCaptureView]
  | rderr =>
    rw [exec_rderr_frame h]
    simp [SameConfig, SamePorts, SameCaptureView]
  | edge =>
    rw [exec_edge_frame h]
    simp [SameConfig, SamePorts]
  | longp =>
    rw [exec_longp_frame h]
    simp [SameConfig, SamePorts]
  | handoff =>
    have hp := exec_handoff_pending h
    rw [exec_handoff_frame h]
    simpa [SameConfig, SamePorts] using hp
  | decode =>
    rw [exec_decode_frame h]
    simp [SameConfig, SamePorts, SameCaptureView]

/-! ### The error counter (10_state.md R28) -/

/-- A `DECODE` leaves `errorcount` or increments it with saturation (44_fault.md R172). -/
theorem exec_decode_errorcount {s t : State} (h : exec .decode s = .next t) :
    t.errorcount = s.errorcount ∨ t.errorcount = saturatingIncrement s.errorcount := by
  obtain ⟨-, rfl⟩ := exec_decode_eq_next_iff.mp h
  split
  · rcases consumeRequest_cases s with ⟨k, -, he⟩ | ⟨k, -, -, he⟩ | ⟨c, -, -, he⟩
    · exact .inl (by rw [he]; rfl)
    · exact .inr (by rw [he, decodeFails_eq]; rfl)
    · exact .inl (by rw [he]; rfl)
  · exact .inl rfl

/-- Every instruction but `INIT` leaves `errorcount` or increments it with saturation. -/
theorem exec_errorcount {i : Instr} {s t : State} (hi : isInit i = false) (h : exec i s = .next t) :
    t.errorcount = s.errorcount ∨ t.errorcount = saturatingIncrement s.errorcount := by
  by_cases hd : i = .decode
  · subst hd
    exact exec_decode_errorcount h
  · obtain ⟨-, -, -, -, -, -, -, -, -, howner, -⟩ := fieldsAreWrittenByTheirOwners i s t h
    exact .inl (howner hi hd).1

/-- Settles O49: the counter stays or takes one saturating increment. -/
theorem errorcountIsMonotonic : Obligations.ErrorcountIsMonotonic := by
  intro i s t hi h
  rcases exec_errorcount hi h with he | he
  · rw [he]
    exact ⟨BitVec.le_refl _, Nat.le_succ _, id⟩
  · rw [he]
    refine ⟨le_saturatingIncrement _, ?_, fun hmax => by rw [hmax]; rfl⟩
    rw [saturatingIncrement_toNat]
    exact Nat.min_le_left _ _

end Sys2Proof.Machine

/-! ## 10_state.md: the invariant, the reset state and the classification -/

namespace Sys2Proof.Machine

/-! ### The invariant, operation by operation (10_state.md R32) -/

theorem State.Inv.respond {s : State} (h : s.Inv) (st : Status) (d : BitVec 32) : (respond st d s).Inv := { h with }

theorem State.Inv.fetchOp {s t : State} {o : Option OpWord} (h : s.Inv) (hf : fetchOp s = (o, t)) : t.Inv := by
  rw [fetchOp_frame hf]
  exact { h with }

/-- A cleared window holds no sentinel. -/
theorem ne_sentinel_of_mem_cleared {n : Nat} {c : RawCode} (hc : c ∈ List.replicate n Config.neutral) : c ≠ 2047 := by
  rw [List.eq_of_mem_replicate hc]
  decide

/-- `INIT` establishes the invariant from any state (10_state.md R34). -/
theorem resetState_inv (a r : Bool) {f : BitVec 8} {l : BitVec 16} (hf : f ≠ 0) (hl : l ≠ 0) (s : State) :
    (resetState a r f l s).Inv := by
  rw [resetState_eq]
  exact
    { initialised := rfl
      windowNonempty := hf
      limitPositive := hl
      windowLength := List.length_replicate
      idleCursor := fun _ => ⟨rfl, rfl⟩
      capturingCursor := nofun
      stoppedIdle := fun _ => rfl
      headInWindow := (BitVec.pos_iff_ne_zero _).mpr hf
      windowCodes := fun _ hc => ne_sentinel_of_mem_cleared hc
      unseenNeutral := fun _ _ hc => List.eq_of_mem_replicate hc
      belowLimit := fun _ => (BitVec.pos_iff_ne_zero _).mpr hl
      atLimit := nofun }

/-- A detector at rest meets the cursor clauses whether or not capture is enabled. -/
theorem State.Inv.detectorIdle {s : State} (h : s.Inv) (run : Bool) : (detectorIdle { s with running := run }).Inv :=
  { h with
    idleCursor := fun _ => ⟨rfl, rfl⟩
    capturingCursor := nofun
    stoppedIdle := fun _ => rfl }

theorem State.Inv.restartReset {s : State} (h : s.Inv) : (restartReset s).Inv :=
  { h with
    windowLength := List.length_replicate
    headInWindow := (BitVec.pos_iff_ne_zero _).mpr h.windowNonempty
    windowCodes := fun _ hc => ne_sentinel_of_mem_cleared hc
    unseenNeutral := fun _ _ hc => List.eq_of_mem_replicate hc
    belowLimit := fun _ => (BitVec.pos_iff_ne_zero _).mpr h.limitPositive
    atLimit := nofun }

theorem State.Inv.sealFrame {s : State} (h : s.Inv) (hr : s.running = true) (n : Fin 15) : (sealFrame n s).Inv :=
  { h with
    idleCursor := nofun
    capturingCursor := nofun
    stoppedIdle := fun hs => nomatch hr.symm.trans hs }

/-- The cursor does not wrap when it advances: at 13 the sample seals the frame instead (40_capture.md R100). -/
theorem wpos_add_one_ne_zero {w : Fin 14} (h : w ≠ 13) : w + 1 ≠ 0 := by omega

theorem State.Inv.writeActive {s : State} (h : s.Inv) (i : Fin 14) (v : Interval) : (writeActive i v s).Inv := { h with }

theorem State.Inv.captureSample {s : State} (h : s.Inv) (hr : s.running = true) (v : Interval) : (captureSample v s).Inv := by
  cases hc : s.capState with
  | idle =>
    rw [captureSample_of_idle v hc]
    exact
      { h with
        idleCursor := nofun
        capturingCursor := fun _ => ⟨Fin.zero_ne_one.symm, (h.idleCursor hc).2⟩
        stoppedIdle := fun hs => nomatch hr.symm.trans hs }
  | capturing =>
    by_cases hw : s.wpos = 13
    · rw [captureSample_of_capturing_last v hc hw]
      exact (h.writeActive s.wpos v).sealFrame hr 14
    · rw [captureSample_of_capturing v hc hw]
      exact
        { h with
          idleCursor := fun hi => nomatch hc.symm.trans hi
          capturingCursor := fun _ => ⟨wpos_add_one_ne_zero hw, (h.capturingCursor hc).2⟩ }
  | complete =>
    by_cases hw : s.wpos = 13
    · rw [captureSample_of_complete_last v hc hw]
      exact (h.writeActive s.wpos v).sealFrame hr 0
    · rw [captureSample_of_complete v hc hw]
      exact
        { h with
          idleCursor := fun hi => nomatch hc.symm.trans hi
          capturingCursor := fun hi => nomatch hc.symm.trans hi }

theorem State.Inv.captureLongPulse {s : State} (h : s.Inv) (hr : s.running = true) : (captureLongPulse s).Inv := by
  cases hc : s.capState with
  | idle => rwa [captureLongPulse_of_idle hc]
  | capturing =>
    rw [captureLongPulse_of_capturing hc]
    exact h.sealFrame hr _
  | complete =>
    by_cases hw : s.wpos = 0
    · rwa [captureLongPulse_of_complete_rest hc hw]
    · rw [captureLongPulse_of_complete hc hw]
      exact h.sealFrame hr 0

theorem State.Inv.handOver {s : State} (h : s.Inv) : (handOver s).Inv :=
  { h with
    idleCursor := fun _ => ⟨rfl, rfl⟩
    capturingCursor := nofun
    stoppedIdle := fun _ => rfl }

/-- The counter meets `LIMIT` exactly when a failure reaches it, since it was below before (44_fault.md R172). -/
theorem State.Inv.decodeFails {s : State} (h : s.Inv) (hf : s.fsm = .running) (k : FaultKind) : (decodeFails k s).Inv := by
  have hlt : s.consecutive < s.cfgLIMIT := h.belowLimit hf
  rw [decodeFails_eq]
  refine { h with belowLimit := fun hrun => ?_, atLimit := fun j hj => ?_ }
  · dsimp only at hrun
    split at hrun
    · cases hrun
    · next hle => exact BitVec.not_le.mp hle
  · dsimp only at hj ⊢
    split at hj
    · next hle => bv_omega
    · rw [hf] at hj; cases hj

/-- A code that succeeds enters the window, of which only its slot changes (43_filter.md R161). -/
theorem State.Inv.decodeSucceeds {s : State} (h : s.Inv) (hf : s.fsm = .running) {c : RawCode} (hc : c ≠ 2047) :
    (decodeSucceeds c s).Inv where
  initialised := h.initialised
  windowNonempty := h.windowNonempty
  limitPositive := h.limitPositive
  windowLength := (pushCode_window_length c s).trans h.windowLength
  idleCursor := h.idleCursor
  capturingCursor := h.capturingCursor
  stoppedIdle := h.stoppedIdle
  headInWindow := pushCode_head_lt c s h.windowNonempty
  windowCodes := fun d hd => (List.mem_or_eq_of_mem_set hd).elim (h.windowCodes d) fun hdc => hdc ▸ hc
  unseenNeutral := nofun
  belowLimit := fun _ => (BitVec.pos_iff_ne_zero _).mpr h.limitPositive
  atLimit := fun _ hk => nomatch hf.symm.trans hk

theorem State.Inv.consumeRequest {s : State} (h : s.Inv) : (consumeRequest s).Inv := by
  have hp : State.Inv { s with pending := false } := { h with }
  rcases consumeRequest_cases s with ⟨k, -, he⟩ | ⟨k, hf, -, he⟩ | ⟨c, hf, hv, he⟩
  · rw [he]; exact hp
  · rw [he]; exact hp.decodeFails hf k
  · rw [he]
    obtain ⟨-, -, -, -, -, hc⟩ := snapshotVerdict_success hv
    exact hp.decodeSucceeds hf hc

/-- Every instruction keeps the invariant. -/
theorem exec_keeps_inv {i : Instr} {s t : State} (h : s.Inv) (he : exec i s = .next t) : t.Inv := by
  cases i with
  | init a r f l =>
    obtain ⟨-, -, rfl⟩ | ⟨⟨hf, hl⟩, rfl⟩ := exec_init_eq_next_iff.mp he
    · exact h.respond _ _
    · exact (resetState_inv a r hf hl s).respond _ _
  | start =>
    obtain ⟨-, rfl⟩ := exec_start_eq_next_iff.mp he
    refine State.Inv.respond ?_ _ _
    split
    · exact h
    · split
      · exact (h.detectorIdle true).restartReset
      · exact h.detectorIdle true
  | stop =>
    obtain ⟨-, rfl⟩ := exec_stop_eq_next_iff.mp he
    refine State.Inv.respond ?_ _ _
    split
    · exact h.detectorIdle false
    · exact h
  | rdtemp =>
    obtain ⟨-, ⟨-, rfl⟩ | ⟨k, -, -, rfl⟩ | ⟨-, -, rfl⟩⟩ := exec_rdtemp_eq_next_iff.mp he <;> exact h.respond _ _
  | rderr =>
    obtain ⟨-, rfl⟩ := exec_rderr_eq_next_iff.mp he
    split <;> exact h.respond _ _
  | edge v =>
    obtain ⟨-, rfl⟩ := exec_edge_eq_next_iff.mp he
    refine State.Inv.respond ?_ _ _
    split
    · exact h.captureSample ‹_› v
    · exact h
  | longp =>
    obtain ⟨-, rfl⟩ := exec_longp_eq_next_iff.mp he
    refine State.Inv.respond ?_ _ _
    split
    · exact h.captureLongPulse ‹_›
    · exact h
  | handoff =>
    obtain ⟨-, rfl⟩ := exec_handoff_eq_next_iff.mp he
    split
    · exact h.handOver.respond _ _
    · exact h.respond _ _
  | decode =>
    obtain ⟨-, rfl⟩ := exec_decode_eq_next_iff.mp he
    split
    · exact h.consumeRequest.respond _ _
    · exact h.respond _ _

/-- A refused word changes only the answer. -/
theorem performWord_keeps_inv {w : OpWord} {s t : State} (h : s.Inv) (he : performWord w s = .next t) : t.Inv := by
  rcases performWord_cases w s with ⟨i, -, hp⟩ | ⟨e, -, hp⟩
  · exact exec_keeps_inv h (hp.symm.trans he)
  · obtain ⟨-, rfl⟩ := afterInit_eq_next_iff.mp (hp.symm.trans he)
    exact h.respond _ _

/-- Settles O14: fetching keeps the invariant, and so does every word performed. -/
theorem stepKeepsInvariant : Obligations.StepKeepsInvariant := by
  intro s t h he
  rcases step_cases s with ⟨w, u, hf, hs⟩ | ⟨u, hf, hs⟩
  · exact performWord_keeps_inv (h.fetchOp hf) (hs.symm.trans he)
  · obtain rfl : u = t := Host.Outcome.next.inj (hs.symm.trans he)
    exact h.fetchOp hf

theorem exec_init_of_legal (a r : Bool) {f : BitVec 8} {l : BitVec 16} (hf : f ≠ 0) (hl : l ≠ 0) (s : State) :
    exec (.init a r f l) s = .next (respond .ok 0 (resetState a r f l s)) :=
  exec_init_eq_next_iff.mpr (.inr ⟨⟨hf, hl⟩, rfl⟩)

/-- Settles O15: the state of R34 meets every clause. -/
theorem initEstablishesInvariant : Obligations.InitEstablishesInvariant := fun a r _ _ s hf hl =>
  ⟨_, exec_init_of_legal a r hf hl s, (resetState_inv a r hf hl s).respond _ _⟩

/-- Settles O54: `resetState` writes neither `inputs` nor `turns`. -/
theorem initKeepsThePresentedWords : Obligations.InitKeepsThePresentedWords := fun a r _ _ s hf hl =>
  ⟨_, exec_init_of_legal a r hf hl s, rfl, rfl⟩

/-! ### The reset state -/

/-- Settles O12: each field is read off `State.reset`. -/
theorem resetHasTheSpecValues : Obligations.ResetHasTheSpecValues :=
  ⟨rfl, rfl, rfl, rfl, rfl, rfl, rfl, rfl, rfl, rfl, rfl, rfl⟩

/-- Settles O13: the three neutral slots, the rest by value. -/
theorem resetMeetsInvariant : Obligations.ResetMeetsInvariant where
  initialised := rfl
  windowNonempty := by decide
  limitPositive := by decide
  windowLength := rfl
  idleCursor := fun _ => ⟨rfl, rfl⟩
  capturingCursor := nofun
  stoppedIdle := nofun
  headInWindow := by decide
  windowCodes := by decide
  unseenNeutral := by decide
  belowLimit := fun _ => by decide
  atLimit := nofun

/-! ### RDTEMP and the classification (10_state.md R30) -/

/-- The status `RDTEMP` reports for a classification (45_host.md R196). -/
def Classification.status : Classification → Status
  | .none => .ok
  | .fault k => kindStatus k
  | .notRunning => .notRunning

/-- `RDTEMP`'s three answers are the three forms of the classification. -/
theorem exec_rdtemp_status {s t : State} (h : exec .rdtemp s = .next t) : t.response.status = (classification s).status := by
  obtain ⟨-, ⟨hr, rfl⟩ | ⟨k, hr, hf, rfl⟩ | ⟨hr, hf, rfl⟩⟩ := exec_rdtemp_eq_next_iff.mp h
  · simp [classification, hr, Classification.status]
  · simp [classification, hr, hf, Classification.status]
  · simp [classification, hr, hf, Classification.status]

/-- The classification a status of `RDTEMP` reports (30_encoding.md R85); the other statuses are never its answer. -/
def Classification.ofStatus : Status → Classification
  | .notRunning => .notRunning
  | .wrongParity => .fault .wrongParity
  | .lowRange => .fault .lowRange
  | .highRange => .fault .highRange
  | _ => .none

theorem Classification.ofStatus_status : Function.LeftInverse Classification.ofStatus Classification.status
  | .none => rfl
  | .fault .wrongParity => rfl
  | .fault .lowRange => rfl
  | .fault .highRange => rfl
  | .notRunning => rfl

/-- Settles O25: the status is that of the classification, and the classification can be read back from it. -/
theorem rdtempReportsTheClassification : Obligations.RdtempReportsTheClassification := by
  refine ⟨fun s hr => by simp [classification, hr], fun s k hr hf => by simp [classification, hr, hf],
    fun s hr hf => by simp [classification, hr, hf], fun s t h => ?_⟩
  have key (c : Classification) : classification s = c ↔ t.response.status = c.status := by
    rw [exec_rdtemp_status h, Classification.ofStatus_status.injective.eq_iff]
  exact ⟨key _, key _, key _, key _, key _⟩

end Sys2Proof.Machine

/-! ## 10_state.md: the unspecified contents of the buffers never show -/

namespace Sys2Proof.Machine

/-! ### States that differ in the buffers alone -/

/-- `s` with other contents of the two sample buffers: all that `AgreeButStale` lets differ. -/
def State.withBuffers (a b : Buffer) (s : State) : State := { s with active := a, snapshot := b }

@[simp] theorem withBuffers_cfgRR (a b : Buffer) (s : State) : (s.withBuffers a b).cfgRR = s.cfgRR := rfl
@[simp] theorem withBuffers_running (a b : Buffer) (s : State) : (s.withBuffers a b).running = s.running := rfl
@[simp] theorem withBuffers_capState (a b : Buffer) (s : State) : (s.withBuffers a b).capState = s.capState := rfl
@[simp] theorem withBuffers_wpos (a b : Buffer) (s : State) : (s.withBuffers a b).wpos = s.wpos := rfl
@[simp] theorem withBuffers_pending (a b : Buffer) (s : State) : (s.withBuffers a b).pending = s.pending := rfl
@[simp] theorem withBuffers_seenValid (a b : Buffer) (s : State) : (s.withBuffers a b).seenValid = s.seenValid := rfl
@[simp] theorem withBuffers_fsm (a b : Buffer) (s : State) : (s.withBuffers a b).fsm = s.fsm := rfl
@[simp] theorem withBuffers_turns (a b : Buffer) (s : State) : (s.withBuffers a b).turns = s.turns := rfl
@[simp] theorem withBuffers_inputs (a b : Buffer) (s : State) : (s.withBuffers a b).inputs = s.inputs := rfl

theorem AgreeButStale.exists_withBuffers {s t : State} (h : AgreeButStale s t) : ∃ a b, t = s.withBuffers a b :=
  ⟨_, _, h.rest⟩

theorem AgreeButStale.refl (s : State) : AgreeButStale s s := ⟨rfl, fun _ _ _ => rfl, fun _ _ => rfl, fun _ => rfl⟩

/-- What a pair of states owes to the relation depends on the buffers, the detector and the two lengths alone. -/
theorem AgreeButStale.transfer {s u : State} {a b : Buffer} (h : AgreeButStale s (s.withBuffers a b)) (hc : u.capState = s.capState)
    (hw : u.wpos = s.wpos) (hl : u.sealedLen = s.sealedLen) (hn : u.snapLen = s.snapLen) (ha : u.active = s.active)
    (hb : u.snapshot = s.snapshot) : AgreeButStale u (u.withBuffers a b) where
  rest := rfl
  capturing := by rw [hc, hw, ha]; exact h.capturing
  complete := by rw [hc, hl, ha]; exact h.complete
  pending := by rw [hn, hb]; exact h.pending

/-- A detector at rest has written no element of a frame yet, so only a full snapshot binds. -/
theorem AgreeButStale.of_idle {u : State} {a b : Buffer} (hc : u.capState = .idle) (hp : u.snapLen = 14 → b = u.snapshot) :
    AgreeButStale u (u.withBuffers a b) where
  rest := rfl
  capturing := fun h => nomatch hc.symm.trans h
  complete := fun h => nomatch hc.symm.trans h
  pending := hp

/-! ### Each procedure keeps the relation -/

section
variable {s t : State}

theorem AgreeButStale.respond (h : AgreeButStale s t) (st : Status) (d : BitVec 32) : AgreeButStale (respond st d s) (respond st d t) := by
  obtain ⟨a, b, rfl⟩ := h.exists_withBuffers
  exact h.transfer rfl rfl rfl rfl rfl rfl

theorem AgreeButStale.detectorIdle (h : AgreeButStale s t) (run : Bool) :
    AgreeButStale (detectorIdle { s with running := run }) (detectorIdle { t with running := run }) := by
  obtain ⟨a, b, rfl⟩ := h.exists_withBuffers
  exact .of_idle rfl h.pending

theorem AgreeButStale.restartReset (h : AgreeButStale s t) : AgreeButStale (restartReset s) (restartReset t) := by
  obtain ⟨a, b, rfl⟩ := h.exists_withBuffers
  exact h.transfer rfl rfl rfl rfl rfl rfl

/-- An element written in both buffers agrees in both, and no other changes. -/
theorem getElem_set_congr {x y : Buffer} {w i : Fin 14} (v : Interval) (h : i ≠ w → y[i] = x[i]) :
    (y.set w v)[i] = (x.set w v)[i] := by
  by_cases hi : i = w
  · subst hi; simp
  · have hne : w.val ≠ i.val := fun e => hi (Fin.ext e.symm)
    simpa [Vector.getElem_set_ne, hne] using h hi

/-- Sealed at a length below 14, a frame shows no element of `active`: the hand-off copies it under that length. -/
theorem AgreeButStale.sealFrame (h : AgreeButStale s t) {n : Fin 15} (hn : n = 14 → t.active = s.active) :
    AgreeButStale (sealFrame n s) (sealFrame n t) := by
  obtain ⟨a, b, rfl⟩ := h.exists_withBuffers
  exact { rest := rfl, capturing := nofun, complete := fun _ => hn, pending := h.pending }

/-- An element written in both buffers alike keeps the relation, whatever the detector is doing. -/
theorem AgreeButStale.writeActive (h : AgreeButStale s t) (w : Fin 14) (v : Interval) :
    AgreeButStale (writeActive w v s) (writeActive w v t) := by
  obtain ⟨a, b, rfl⟩ := h.exists_withBuffers
  exact
    { rest := rfl
      capturing := fun hc i hi => getElem_set_congr v fun _ => h.capturing hc i hi
      complete := fun hc hl => congrArg (fun x : Buffer => x.set w.val v w.isLt) (h.complete hc hl)
      pending := h.pending }

/-- A sample of a transmission goes to the cursor, so the elements up to it agree afterwards. -/
theorem AgreeButStale.getElem_writeActive (h : AgreeButStale s t) (hc : s.capState = .capturing) (v : Interval) {i : Fin 14}
    (hi : i ≤ s.wpos) : (Machine.writeActive s.wpos v t).active[i] = (Machine.writeActive s.wpos v s).active[i] :=
  getElem_set_congr v fun hne => h.capturing hc i (lt_of_le_of_ne hi hne)

theorem le_of_lt_wpos_add_one {i w : Fin 14} (hi : i < w + 1) : i ≤ w := by omega

theorem AgreeButStale.captureSample (h : AgreeButStale s t) (v : Interval) : AgreeButStale (captureSample v s) (captureSample v t) := by
  have hwrite := h.writeActive s.wpos v
  obtain ⟨a, b, rfl⟩ := h.exists_withBuffers
  cases hc : s.capState with
  | idle =>
    rw [captureSample_of_idle v hc, captureSample_of_idle v (s := s.withBuffers a b) hc]
    exact
      { rest := rfl
        capturing := fun _ i hi => getElem_set_congr v fun hne => absurd (Fin.one_le_of_ne_zero hne) (not_le.mpr hi)
        complete := nofun
        pending := h.pending }
  | capturing =>
    by_cases hw : s.wpos = 13
    · rw [captureSample_of_capturing_last v hc hw, captureSample_of_capturing_last v (s := s.withBuffers a b) hc hw]
      refine hwrite.sealFrame fun _ => Vector.ext fun i hi => ?_
      exact h.getElem_writeActive hc v (i := ⟨i, hi⟩) (hw ▸ Nat.le_of_lt_succ hi)
    · rw [captureSample_of_capturing v hc hw, captureSample_of_capturing v (s := s.withBuffers a b) hc hw]
      exact
        { rest := rfl
          capturing := fun _ i hi => h.getElem_writeActive hc v (le_of_lt_wpos_add_one hi)
          complete := fun h' => nomatch hc.symm.trans h'
          pending := h.pending }
  | complete =>
    by_cases hw : s.wpos = 13
    · rw [captureSample_of_complete_last v hc hw, captureSample_of_complete_last v (s := s.withBuffers a b) hc hw]
      exact hwrite.sealFrame (n := 0) nofun
    · rw [captureSample_of_complete v hc hw, captureSample_of_complete v (s := s.withBuffers a b) hc hw]
      exact
        { rest := rfl
          capturing := fun h' => nomatch hc.symm.trans h'
          complete := hwrite.complete
          pending := h.pending }

theorem AgreeButStale.captureLongPulse (h : AgreeButStale s t) : AgreeButStale (captureLongPulse s) (captureLongPulse t) := by
  obtain ⟨a, b, rfl⟩ := h.exists_withBuffers
  cases hc : s.capState with
  | idle => rwa [captureLongPulse_of_idle hc, captureLongPulse_of_idle (s := s.withBuffers a b) hc]
  | capturing =>
    rw [captureLongPulse_of_capturing hc, captureLongPulse_of_capturing (s := s.withBuffers a b) hc]
    exact h.sealFrame fun hn => absurd hn (Fin.castSucc_ne_last s.wpos)
  | complete =>
    by_cases hw : s.wpos = 0
    · rwa [captureLongPulse_of_complete_rest hc hw, captureLongPulse_of_complete_rest (s := s.withBuffers a b) hc hw]
    · rw [captureLongPulse_of_complete hc hw, captureLongPulse_of_complete (s := s.withBuffers a b) hc hw]
      exact h.sealFrame (n := 0) nofun

/-- The hand-off copies `active` under its length: a full frame's elements agree already (41_handoff.md R120). -/
theorem AgreeButStale.handOver (h : AgreeButStale s t) (hc : s.capState = .complete) : AgreeButStale (handOver s) (handOver t) := by
  obtain ⟨a, b, rfl⟩ := h.exists_withBuffers
  exact .of_idle rfl (h.complete hc)

/-- A snapshot that is not full is not read, and a full one agrees. -/
theorem AgreeButStale.snapshotVerdict_eq (h : AgreeButStale s t) :
    snapshotVerdict t.snapLen t.snapshot = snapshotVerdict s.snapLen s.snapshot := by
  obtain ⟨a, b, rfl⟩ := h.exists_withBuffers
  by_cases hn : s.snapLen = 14
  · exact congrArg _ (h.pending hn)
  · exact (snapshotVerdict_of_short hn _).trans (snapshotVerdict_of_short hn _).symm

theorem applyVerdict_withBuffers (a b : Buffer) (v : Verdict) (s : State) :
    applyVerdict v (s.withBuffers a b) = (applyVerdict v s).withBuffers a b := by
  cases v with
  | success c => rfl
  | failure k => simp only [applyVerdict, decodeFails_eq]; rfl

theorem AgreeButStale.consumeRequest (h : AgreeButStale s t) : AgreeButStale (consumeRequest s) (consumeRequest t) := by
  obtain ⟨a, b, rfl⟩ := h.exists_withBuffers
  have he : Machine.consumeRequest (s.withBuffers a b) = (Machine.consumeRequest s).withBuffers a b := by
    cases hf : s.fsm with
    | faulted k => rw [consumeRequest_of_faulted hf, consumeRequest_of_faulted (s := s.withBuffers a b) hf]; rfl
    | running =>
      rw [consumeRequest_of_running hf, consumeRequest_of_running (s := s.withBuffers a b) hf, h.snapshotVerdict_eq]
      exact applyVerdict_withBuffers a b _ { s with pending := false }
  rw [he]
  apply h.transfer <;> rw [consumeRequest_frame]

end

/-! ### Each instruction, each word and each step answer alike -/

theorem sameOutcome_afterInit {R : State → State → Prop} {s t s' t' : State} (hi : t.initialised = s.initialised) (h : R s' t') :
    SameOutcome R (afterInit s s') (afterInit t t') := by
  unfold afterInit
  rw [hi]
  split
  · exact h
  · rfl

theorem AgreeButStale.refuseWord {s t : State} (h : AgreeButStale s t) : SameOutcome AgreeButStale (refuseWord s) (refuseWord t) :=
  sameOutcome_afterInit (by rw [h.rest]) (h.respond _ _)

theorem AgreeButStale.exec {s t : State} (h : AgreeButStale s t) (i : Instr) :
    SameOutcome AgreeButStale (exec i s) (exec i t) := by
  obtain ⟨a, b, rfl⟩ := h.exists_withBuffers
  cases i with
  | init start0 rr f l =>
    simp only [Machine.exec, execInit]
    split
    · exact h.refuseWord
    · exact AgreeButStale.refl _
  | start =>
    refine sameOutcome_afterInit rfl (AgreeButStale.respond ?_ _ _)
    rw [withBuffers_running, withBuffers_cfgRR]
    split
    · exact h
    · split
      · exact (h.detectorIdle true).restartReset
      · exact h.detectorIdle true
  | stop =>
    refine sameOutcome_afterInit rfl (AgreeButStale.respond ?_ _ _)
    rw [withBuffers_running]
    split
    · exact h.detectorIdle false
    · exact h
  | rdtemp =>
    refine sameOutcome_afterInit rfl ?_
    rw [withBuffers_running, withBuffers_fsm]
    split
    · cases s.fsm with
      | faulted k => exact h.respond _ _
      | running => exact h.respond _ _
    · exact h.respond _ _
  | rderr =>
    refine sameOutcome_afterInit rfl ?_
    rw [withBuffers_seenValid]
    split <;> exact h.respond _ _
  | edge v =>
    refine sameOutcome_afterInit rfl (AgreeButStale.respond ?_ _ _)
    rw [withBuffers_running]
    split
    · exact h.captureSample v
    · exact h
  | longp =>
    refine sameOutcome_afterInit rfl (AgreeButStale.respond ?_ _ _)
    rw [withBuffers_running]
    split
    · exact h.captureLongPulse
    · exact h
  | handoff =>
    refine sameOutcome_afterInit rfl ?_
    rw [withBuffers_capState]
    split
    · exact (h.handOver ‹_›).respond _ _
    · exact h.respond _ _
  | decode =>
    refine sameOutcome_afterInit rfl ?_
    rw [withBuffers_pending]
    split
    · exact h.consumeRequest.respond _ _
    · exact h.respond _ _

theorem AgreeButStale.performWord {s t : State} (h : AgreeButStale s t) (w : OpWord) :
    SameOutcome AgreeButStale (performWord w s) (performWord w t) := by
  unfold Machine.performWord
  cases decodeWord w with
  | ok i => exact h.exec i
  | error e => exact h.refuseWord

/-- An agent's move reads neither buffer. -/
theorem agentWord_withBuffers (a b : Buffer) (g : Agent) (s : State) :
    agentWord g (s.withBuffers a b) = ((agentWord g s).1, (agentWord g s).2.withBuffers a b) := by
  cases g with
  | outside =>
    cases hi : s.inputs with
    | nil => simp only [agentWord, withBuffers_inputs, hi]
    | cons w ws => simp only [agentWord, withBuffers_inputs, hi]; rfl
  | frameAssembler =>
    have hg : handoffEnabled (s.withBuffers a b) = handoffEnabled s := rfl
    simp only [agentWord, hg]
    split <;> rfl
  | decoder =>
    have hg : decodeEnabled (s.withBuffers a b) = decodeEnabled s := rfl
    simp only [agentWord, hg]
    split <;> rfl

theorem takeTurn_withBuffers (a b : Buffer) (g : Agent) (s : State) :
    takeTurn g (s.withBuffers a b) = (takeTurn g s).withBuffers a b := by
  cases ht : s.turns <;> simp only [takeTurn, withBuffers_turns, ht] <;> rfl

/-- Fetching reads neither buffer. -/
theorem fetchOp_withBuffers (a b : Buffer) (s : State) :
    fetchOp (s.withBuffers a b) = ((fetchOp s).1, (fetchOp s).2.withBuffers a b) := by
  have hnext : nextAgent (s.withBuffers a b) = nextAgent s := rfl
  simp only [fetchOp, hnext]
  cases nextAgent s with
  | none => rfl
  | some g => simp only [takeTurn_withBuffers, agentWord_withBuffers]

theorem AgreeButStale.fetchOp {s u : State} {a b : Buffer} {o : Option OpWord} (h : AgreeButStale s (s.withBuffers a b))
    (hf : fetchOp s = (o, u)) : AgreeButStale u (u.withBuffers a b) := by
  apply h.transfer <;> rw [fetchOp_frame hf]

theorem AgreeButStale.step {s t : State} (h : AgreeButStale s t) : SameOutcome AgreeButStale (step s) (step t) := by
  obtain ⟨a, b, rfl⟩ := h.exists_withBuffers
  rcases hf : Machine.fetchOp s with ⟨_ | w, u⟩
  · simp only [Machine.step, fetchOp_withBuffers, hf]
    exact h.fetchOp hf
  · simp only [Machine.step, fetchOp_withBuffers, hf]
    exact (h.fetchOp hf).performWord w

/-- Two outcomes that answer alike are of one kind. -/
theorem sameOutcome_cases {R : State → State → Prop} :
    ∀ {o p : Host.Outcome State Fault Refusal}, SameOutcome R o p →
      (∃ s t, o = .next s ∧ p = .next t ∧ R s t) ∨ (∃ f, o = .fault f ∧ p = .fault f) ∨ (∃ r, o = .refused r ∧ p = .refused r)
  | .next s, .next t, h => .inl ⟨s, t, rfl, rfl, h⟩
  | .fault f, .fault _, h => .inr (.inl ⟨f, rfl, congrArg _ (Eq.symm h)⟩)
  | .refused r, .refused _, h => .inr (.inr ⟨r, rfl, congrArg _ (Eq.symm h)⟩)
  | .next _, .fault _, h => h.elim
  | .next _, .refused _, h => h.elim
  | .fault _, .next _, h => h.elim
  | .fault _, .refused _, h => h.elim
  | .refused _, .next _, h => h.elim
  | .refused _, .fault _, h => h.elim

theorem AgreeButStale.runSteps {s t : State} (n : Nat) (h : AgreeButStale s t) :
    SameOutcome AgreeButStale (runSteps n s) (runSteps n t) := by
  induction n generalizing s t with
  | zero => exact h
  | succ n ih =>
    rcases sameOutcome_cases h.step with ⟨s', t', hs, ht, h'⟩ | ⟨f, hs, ht⟩ | ⟨r, hs, ht⟩
    · simp only [Machine.runSteps, hs, ht]
      exact ih h'
    · simp only [Machine.runSteps, hs, ht, SameOutcome]
    · simp only [Machine.runSteps, hs, ht, SameOutcome]

/-- Settles O51, by induction on the number of steps, each of which keeps the relation `AgreeButStale`. -/
theorem unspecifiedContentsNeverShow : Obligations.UnspecifiedContentsNeverShow :=
  ⟨fun _ _ _ hc hn => AgreeButStale.of_idle hc fun h => absurd h hn, fun n _ _ h => h.runSteps n⟩

end Sys2Proof.Machine

/-! ## 20_memory.md: the moves of the agents, and what every operation does to the schedule -/

namespace Sys2Proof.Machine

/-! ### Every operation of an initialised machine goes on (70_reset_and_hazards.md R260) -/

theorem exec_completes {s : State} (h : s.initialised = true) (i : Instr) : ∃ t, exec i s = .next t := by
  cases i with
  | init a r f l =>
    by_cases hfl : f = 0 ∨ l = 0
    · exact ⟨_, exec_init_eq_next_iff.mpr (.inl ⟨hfl, h, rfl⟩)⟩
    · exact ⟨_, exec_init_eq_next_iff.mpr (.inr ⟨not_or.mp hfl, rfl⟩)⟩
  | start => exact ⟨_, afterInit_of_initialised h _⟩
  | stop => exact ⟨_, afterInit_of_initialised h _⟩
  | rdtemp => exact ⟨_, afterInit_of_initialised h _⟩
  | rderr => exact ⟨_, afterInit_of_initialised h _⟩
  | edge v => exact ⟨_, afterInit_of_initialised h _⟩
  | longp => exact ⟨_, afterInit_of_initialised h _⟩
  | handoff => exact ⟨_, afterInit_of_initialised h _⟩
  | decode => exact ⟨_, afterInit_of_initialised h _⟩

theorem performWord_completes {s : State} (h : s.initialised = true) (w : OpWord) : ∃ t, performWord w s = .next t := by
  rcases performWord_cases w s with ⟨i, -, hp⟩ | ⟨e, -, hp⟩
  · rw [hp]; exact exec_completes h i
  · rw [hp]; exact ⟨_, afterInit_of_initialised h _⟩

/-! ### No operation touches the schedule (log 12) -/

theorem exists_init_of_isInit {i : Instr} (h : isInit i = true) : ∃ a r f l, i = .init a r f l := by
  cases i with
  | init a r f l => exact ⟨a, r, f, l, rfl⟩
  | _ => cases h

/-- The presented words, the recorded turns and the two waits are as before, and an initialised machine stays so. -/
structure KeepsSchedule (s t : State) : Prop where
  initialised : s.initialised = true → t.initialised = true
  inputs : t.inputs = s.inputs
  turns : t.turns = s.turns
  handoffWait : t.handoffWait = s.handoffWait
  decodeWait : t.decodeWait = s.decodeWait

theorem exec_keepsSchedule {i : Instr} {s t : State} (h : exec i s = .next t) : KeepsSchedule s t := by
  cases hi : isInit i with
  | false =>
    obtain ⟨-, -, -, -, -, -, -, -, -, -, hports⟩ := fieldsAreWrittenByTheirOwners i s t h
    obtain ⟨hinit, hin, htu, hhw, hdw, -⟩ := hports hi
    exact ⟨hinit.trans, hin, htu, hhw, hdw⟩
  | true =>
    obtain ⟨a, r, f, l, rfl⟩ := exists_init_of_isInit hi
    obtain ⟨-, -, rfl⟩ | ⟨-, rfl⟩ := exec_init_eq_next_iff.mp h
    · exact ⟨id, rfl, rfl, rfl, rfl⟩
    · exact ⟨fun _ => rfl, rfl, rfl, rfl, rfl⟩

theorem performWord_keepsSchedule {w : OpWord} {s t : State} (h : performWord w s = .next t) : KeepsSchedule s t := by
  rcases performWord_cases w s with ⟨i, -, hp⟩ | ⟨e, -, hp⟩
  · exact exec_keepsSchedule (hp.symm.trans h)
  · obtain ⟨-, rfl⟩ := afterInit_eq_next_iff.mp (hp.symm.trans h)
    exact ⟨id, rfl, rfl, rfl, rfl⟩

/-! ### The guards of the internal agents (20_memory.md R66) -/

theorem agentReady_frameAssembler {s : State} (h : s.initialised = true) :
    agentReady s .frameAssembler = decide (s.capState = .complete) := by
  simp [agentReady, handoffEnabled, h]

theorem agentReady_decoder {s : State} (h : s.initialised = true) : agentReady s .decoder = s.pending := by
  simp [agentReady, decodeEnabled, h]

/-! ### An agent's move -/

/-- The whole effect of `a`'s move, its turn already taken: its word is performed, or it has none. -/
def agentMove (a : Agent) (s : State) : Host.Outcome State Fault Refusal :=
  match agentWord a s with
  | (some w, t) => performWord w t
  | (none, t) => .next t

theorem agentMove_of_agentWord {a : Agent} {s t : State} {w : OpWord} (h : agentWord a s = (some w, t)) :
    agentMove a s = performWord w t := by
  simp only [agentMove, h]

/-- An agent that can move has a word. -/
theorem agentWord_of_ready {a : Agent} {s : State} (h : agentReady s a = true) : ∃ w t, agentWord a s = (some w, t) := by
  rcases ho : agentWord a s with ⟨_ | w, t⟩
  · rcases agentWord_cases ho with ⟨-, -, hn⟩ | ⟨w, -, hw, -⟩ | ⟨-, hw, -⟩ | ⟨-, hw, -⟩
    · exact nomatch h.symm.trans hn
    · cases hw
    · cases hw
    · cases hw
  · exact ⟨w, t, rfl⟩

theorem agentMove_of_not_ready {a : Agent} {s : State} (h : agentReady s a = false) : agentMove a s = .next s := by
  cases a with
  | outside =>
    have hin : s.inputs = [] := by simpa [agentReady] using h
    simp only [agentMove, agentWord, hin]
  | frameAssembler =>
    have hg : handoffEnabled s = false := h
    simp [agentMove, agentWord, hg]
  | decoder =>
    have hg : decodeEnabled s = false := h
    simp [agentMove, agentWord, hg]

theorem agentMove_outside {s : State} {w : OpWord} {ws : List OpWord} (h : s.inputs = w :: ws) :
    agentMove .outside s = performWord w { s with inputs := ws } := by
  simp only [agentMove, agentWord, h]

theorem agentMove_frameAssembler {s : State} (h : agentReady s .frameAssembler = true) :
    agentMove .frameAssembler s = exec .handoff s := by
  have hg : handoffEnabled s = true := h
  simp only [agentMove, agentWord, hg, if_true]
  rfl

theorem agentMove_decoder {s : State} (h : agentReady s .decoder = true) : agentMove .decoder s = exec .decode s := by
  have hg : decodeEnabled s = true := h
  simp only [agentMove, agentWord, hg, if_true]
  rfl

theorem agentWord_frame {a : Agent} {s t : State} {o : Option OpWord} (h : agentWord a s = (o, t)) :
    t = { s with inputs := t.inputs } := by
  rcases agentWord_cases h with ⟨-, rfl, -⟩ | ⟨w, -, -, -, ht⟩ | ⟨-, -, -, rfl⟩ | ⟨-, -, -, rfl⟩
  · rfl
  · exact ht
  · rfl
  · rfl

/-- A move changes the presented words at most: its word is taken away, and no operation touches the schedule. -/
theorem agentMove_keepsSchedule {a : Agent} {s t : State} (h : agentMove a s = .next t) :
    KeepsSchedule { s with inputs := t.inputs } t := by
  rcases ho : agentWord a s with ⟨_ | w, u⟩
  · have hu : u = t := by simpa only [agentMove, ho, Host.Outcome.next.injEq] using h
    rw [← hu, ← agentWord_frame ho]
    exact ⟨id, rfl, rfl, rfl, rfl⟩
  · have hk := performWord_keepsSchedule ((agentMove_of_agentWord ho).symm.trans h)
    rwa [agentWord_frame ho, ← hk.inputs] at hk

theorem agentMove_completes {s : State} (h : s.initialised = true) (a : Agent) : ∃ t, agentMove a s = .next t := by
  cases hr : agentReady s a with
  | false => exact ⟨s, agentMove_of_not_ready hr⟩
  | true =>
    obtain ⟨w, u, ho⟩ := agentWord_of_ready hr
    rw [agentMove_of_agentWord ho]
    exact performWord_completes (by rw [agentWord_frame ho]; exact h) w

/-- After an internal agent's move its guard is false, whether or not it held (41_handoff.md R120, 42_decode.md R130). -/
theorem agentMove_serves {a : Agent} {s t : State} (ha : a ≠ .outside) (h : agentMove a s = .next t) : agentReady t a = false := by
  cases hr : agentReady s a with
  | false =>
    obtain rfl : s = t := Host.Outcome.next.inj ((agentMove_of_not_ready hr).symm.trans h)
    exact hr
  | true =>
    cases a with
    | outside => exact absurd rfl ha
    | frameAssembler =>
      obtain ⟨-, rfl⟩ := exec_handoff_eq_next_iff.mp ((agentMove_frameAssembler hr).symm.trans h)
      split
      · simp [agentReady, handoffEnabled]
      · simp [agentReady, handoffEnabled, ‹¬_›]
    | decoder =>
      rw [exec_decode_frame ((agentMove_decoder hr).symm.trans h)]
      simp [agentReady, decodeEnabled]

/-! ### A step by whose turn it is (20_memory.md R65; logs 4 and 17) -/

theorem step_of_nextAgent {s : State} {a : Agent} (h : nextAgent s = some a) : step s = agentMove a (takeTurn a s) := by
  rw [step, fetchOp_of_nextAgent h]
  rfl

theorem step_of_no_nextAgent {s : State} (h : nextAgent s = none) : step s = .next s := by
  simp only [step, fetchOp, h]

theorem nextAgent_of_turn {s : State} {a : Agent} {rest : List Agent} (h : s.turns = a :: rest) : nextAgent s = some a := by
  simp only [nextAgent, h]

theorem takeTurn_of_turn {s : State} {b : Agent} {rest : List Agent} (h : s.turns = b :: rest) (a : Agent) :
    takeTurn a s = { s with turns := rest } := by
  simp only [takeTurn, h]

theorem takeTurn_of_no_turn {s : State} (h : s.turns = []) (a : Agent) : takeTurn a s = passOver a s := by
  simp only [takeTurn, h]

theorem takeTurn_initialised (a : Agent) (s : State) : (takeTurn a s).initialised = s.initialised := by
  unfold takeTurn
  split <;> rfl

theorem step_of_turn {s : State} {a : Agent} {rest : List Agent} (h : s.turns = a :: rest) :
    step s = agentMove a { s with turns := rest } := by
  rw [step_of_nextAgent (nextAgent_of_turn h), takeTurn_of_turn h]

/-- Every way a step goes: a recorded turn, nobody ready, or a candidate of the free choice. -/
theorem step_agent_cases (s : State) :
    (∃ a rest, s.turns = a :: rest ∧ step s = agentMove a { s with turns := rest }) ∨
      (s.turns = [] ∧ readyAgents s = [] ∧ step s = .next s) ∨
      (∃ a, s.turns = [] ∧ a ∈ candidates s ∧ step s = agentMove a (passOver a s)) := by
  rcases nextAgent_cases s with ⟨a, rest, ht, h⟩ | ⟨ht, hr, h⟩ | ⟨a, ht, ha, h⟩
  · exact .inl ⟨a, rest, ht, step_of_turn ht⟩
  · exact .inr (.inl ⟨ht, hr, step_of_no_nextAgent h⟩)
  · exact .inr (.inr ⟨a, ht, ha, by rw [step_of_nextAgent h, takeTurn_of_no_turn ht]⟩)

/-- Counting what is passed over takes no agent's word away. -/
theorem agentReady_of_candidate {a : Agent} {s : State} (h : a ∈ candidates s) : agentReady (passOver a s) a = true :=
  (agentReady_passOver a a s).trans (mem_readyAgents.mp (mem_candidates.mp h).1)

theorem step_completes {s : State} (h : s.initialised = true) : ∃ t, step s = .next t := by
  cases hn : nextAgent s with
  | none => exact ⟨s, step_of_no_nextAgent hn⟩
  | some a =>
    rw [step_of_nextAgent hn]
    exact agentMove_completes ((takeTurn_initialised a s).trans h) a

theorem step_initialised {s t : State} (h : s.initialised = true) (hs : step s = .next t) : t.initialised = true := by
  cases hn : nextAgent s with
  | none =>
    obtain rfl : s = t := Host.Outcome.next.inj ((step_of_no_nextAgent hn).symm.trans hs)
    exact h
  | some a =>
    exact (agentMove_keepsSchedule ((step_of_nextAgent hn).symm.trans hs)).initialised ((takeTurn_initialised a s).trans h)

theorem step_turns {s t : State} (hs : step s = .next t) : t.turns = s.turns.tail := by
  rcases step_agent_cases s with ⟨a, rest, ht, he⟩ | ⟨ht, -, he⟩ | ⟨a, ht, -, he⟩
  · simpa [ht] using (agentMove_keepsSchedule (he.symm.trans hs)).turns
  · obtain rfl : s = t := Host.Outcome.next.inj (he.symm.trans hs)
    rw [ht]
    rfl
  · simpa [ht] using (agentMove_keepsSchedule (he.symm.trans hs)).turns

theorem step_serves {a : Agent} {s t : State} (ha : a ≠ .outside) (hn : nextAgent s = some a) (hs : step s = .next t) :
    agentReady t a = false :=
  agentMove_serves ha ((step_of_nextAgent hn).symm.trans hs)

end Sys2Proof.Machine

/-! ## 20_memory.md: steps and guards, accesses, progress -/

namespace Sys2Proof.Machine

/-! ### Steps, turns and guards (20_memory.md R64 to R66) -/

theorem step_of_fetchOp {s t : State} {w : OpWord} (h : fetchOp s = (some w, t)) : step s = performWord w t := by
  simp only [step, h]

theorem performWord_of_decode {w : OpWord} {i : Instr} (h : decodeWord w = .ok i) (s : State) : performWord w s = exec i s := by
  simp only [performWord, h]

theorem performWord_of_error {w : OpWord} {e : DecodeError} (h : decodeWord w = .error e) (s : State) :
    performWord w s = refuseWord s := by
  simp only [performWord, h]

theorem withFetchWord_eq (s : State) (w : OpWord) : s.withFetchWord 36 w.toNat = presentNext w s := by
  rw [State.withFetchWord, Nat.mod_eq_of_lt w.isLt, BitVec.ofNat_toNat, BitVec.setWidth_eq]

/-- The word a recorded turn of the outside performs is the oldest presented one. -/
theorem fetchOp_of_outside_turn {s : State} {w : OpWord} {ws : List OpWord} {rest : List Agent} (ht : s.turns = .outside :: rest)
    (hi : s.inputs = w :: ws) : fetchOp s = (some w, { s with turns := rest, inputs := ws }) := by
  rw [fetchOp_of_nextAgent (nextAgent_of_turn ht), takeTurn_of_turn ht]
  simp only [agentWord, hi]

/-- Settles O7: `step` unfolds to the fetched word, and `withFetchWord` is the recorded turn of the outside with that word. -/
theorem stepRunsTheDecodedInstruction : Obligations.StepRunsTheDecodedInstruction :=
  ⟨fun _ t _ _ hf hd => (step_of_fetchOp hf).trans (performWord_of_decode hd t),
    fun _ t _ _ hf he => (step_of_fetchOp hf).trans (performWord_of_error he t),
    fun _ _ _ _ ht hi => fetchOp_of_outside_turn ht hi,
    fun s w => by
      rw [withFetchWord_eq]
      exact step_of_fetchOp (fetchOp_of_outside_turn (s := presentNext w s) rfl rfl)⟩

/-- Settles O8: a recorded turn is the agent's move, which its guard decides. -/
theorem internalOperationsHaveTheirGuards : Obligations.InternalOperationsHaveTheirGuards := by
  intro s rest hi
  refine ⟨fun ht => ?_, fun ht => ?_, fun ht w ws hw => ?_⟩
  · have hready := agentReady_frameAssembler (s := { s with turns := rest }) hi
    rw [step_of_turn ht]
    exact ⟨fun hc => agentMove_frameAssembler (hready.trans (decide_eq_true hc)),
      fun hc => agentMove_of_not_ready (hready.trans (decide_eq_false hc))⟩
  · have hready := agentReady_decoder (s := { s with turns := rest }) hi
    rw [step_of_turn ht]
    exact ⟨fun hp => agentMove_decoder (hready.trans hp), fun hp => agentMove_of_not_ready (hready.trans hp)⟩
  · obtain ⟨t, hs⟩ := step_completes hi
    exact ⟨t, hs, (step_of_turn ht).trans (agentMove_outside hw)⟩

/-- Settles O9: the free choice takes a candidate, which can move and is overdue if any operation is. -/
theorem unrecordedTurnsMoveSomeReadyAgent : Obligations.UnrecordedTurnsMoveSomeReadyAgent := by
  intro s ht
  rcases step_agent_cases s with ⟨a, rest, ht', -⟩ | ⟨-, hr, he⟩ | ⟨a, -, ha, he⟩
  · exact nomatch ht.symm.trans ht'
  · exact ⟨fun _ => he, fun hne => absurd hr hne⟩
  · obtain ⟨hready, hlate⟩ := mem_candidates.mp ha
    obtain ⟨w, t, hw⟩ := agentWord_of_ready (agentReady_of_candidate ha)
    exact ⟨fun hr => absurd hready (hr ▸ List.not_mem_nil),
      fun _ => ⟨a, hready, w, t, hw, he.trans (agentMove_of_agentWord hw), hlate⟩⟩

/-! ### Reads and writes of the buffers (20_memory.md R63) -/

/-- `RDTEMP` does not read the last answer. -/
theorem exec_rdtemp_of_response (s : State) (r : Response) : exec .rdtemp { s with response := r } = exec .rdtemp s := rfl

/-- `RDERR` does not read the last answer. -/
theorem exec_rderr_of_response (s : State) (r : Response) : exec .rderr { s with response := r } = exec .rderr s := rfl

/-- Settles O22: a read writes only the answer, which no read reads. -/
theorem readsHaveNoSideEffect : Obligations.ReadsHaveNoSideEffect := by
  intro s hi
  obtain ⟨t, ht⟩ := exec_completes hi .rdtemp
  obtain ⟨u, hu⟩ := exec_completes hi .rderr
  have hrdtemp := ht.trans (congrArg _ (exec_rdtemp_frame ht))
  have hrderr := hu.trans (congrArg _ (exec_rderr_frame hu))
  exact ⟨⟨t.response, hrdtemp, (exec_rdtemp_of_response s _).trans hrdtemp⟩,
    ⟨u.response, hrderr, (exec_rderr_of_response s _).trans hrderr⟩⟩

/-- The element a sample writes: 0 in `IDLE`, else `wpos` (40_capture.md R100). -/
theorem captureSample_active_eq_set (v : Interval) (s : State) :
    (captureSample v s).active = s.active.set (if s.capState = .idle then 0 else s.wpos : Fin 14) v := by
  rw [captureSample_active]
  split <;> rfl

theorem captureSample_active_same (v : Interval) (s : State) :
    (captureSample v s).active[(if s.capState = .idle then 0 else s.wpos : Fin 14)] = v := by
  simp only [captureSample_active_eq_set, Fin.getElem_fin, Vector.getElem_set_self]

theorem captureSample_active_of_ne (v : Interval) {s : State} {j : Fin 14} (hj : j ≠ if s.capState = .idle then 0 else s.wpos) :
    (captureSample v s).active[j] = s.active[j] := by
  simp only [captureSample_active_eq_set, Fin.getElem_fin, Vector.getElem_set_ne _ _ (Fin.val_ne_of_ne hj.symm)]

/-- `EDGE` is one sample while running, and no sample while stopped. -/
theorem exec_edge_active {v : Interval} {s t : State} (h : exec (.edge v) s = .next t) :
    t.active = if s.running then (captureSample v s).active else s.active := by
  obtain ⟨-, rfl⟩ := exec_edge_eq_next_iff.mp h
  split <;> rfl

/-- Settles O27: `active` is that of one sample or of none, and the frame of `EDGE` has neither `snapshot` nor `window`. -/
theorem edgeWritesOneElement : Obligations.EdgeWritesOneElement := by
  intro v s t h
  have hactive := exec_edge_active h
  have hframe := exec_edge_frame h
  cases hr : s.running with
  | true =>
    rw [hr, if_pos rfl] at hactive
    refine ⟨fun _ => ?_, fun j hj => ?_, nofun, by rw [hframe], by rw [hframe]⟩
    · rw [hactive]
      exact captureSample_active_same v s
    · rw [hactive]
      exact captureSample_active_of_ne v hj
  | false =>
    rw [hr, if_neg Bool.false_ne_true] at hactive
    exact ⟨nofun, fun j _ => by rw [hactive], fun _ => hactive, by rw [hframe], by rw [hframe]⟩

/-! ### Rest (20_memory.md R67; log 7) -/

/-- How many internal operations can follow with no further word: a waiting frame leads to a `HANDOFF` and a `DECODE`, a request to a `DECODE`. -/
def owedOperations (s : State) : Nat := (if s.capState = .complete then 2 else 0) + s.pending.toNat

/-- A bound on the moves left: a presented word counts for itself and the two operations it can add. -/
def movesLeft (s : State) : Nat := s.turns.length + 3 * s.inputs.length + owedOperations s

theorem movesLeft_eq_zero_iff {s : State} :
    movesLeft s = 0 ↔ s.turns = [] ∧ s.inputs = [] ∧ s.capState ≠ .complete ∧ s.pending = false := by
  simp [movesLeft, owedOperations, and_assoc]

theorem owedOperations_le (s : State) : owedOperations s ≤ 2 + s.pending.toNat := by
  unfold owedOperations
  split <;> omega

/-- Only `HANDOFF` sets `pending` (10_state.md R31). -/
theorem exec_pending_le {i : Instr} {s t : State} (hi : i ≠ .handoff) (h : exec i s = .next t) : t.pending.toNat ≤ s.pending.toNat := by
  obtain ⟨-, -, -, -, -, hkeep, -, hdecode, -⟩ := fieldsAreWrittenByTheirOwners i s t h
  by_cases hd : i = .decode
  · rw [hdecode hd]
    exact Nat.zero_le _
  · cases hinit : isInit i with
    | false => exact (congrArg _ (hkeep hinit hi hd)).le
    | true =>
      obtain ⟨a, r, f, l, rfl⟩ := exists_init_of_isInit hinit
      obtain ⟨-, -, rfl⟩ | ⟨-, rfl⟩ := exec_init_eq_next_iff.mp h
      · exact Nat.le_refl _
      · exact Nat.zero_le _

/-- `HANDOFF` trades the waiting frame for a request (41_handoff.md R120), or does nothing (R121). -/
theorem exec_handoff_owedOperations {s t : State} (h : exec .handoff s = .next t) :
    s.capState = .complete ∧ owedOperations t = 1 ∨ s.capState ≠ .complete ∧ owedOperations t = owedOperations s := by
  obtain ⟨-, rfl⟩ := exec_handoff_eq_next_iff.mp h
  split
  · exact .inl ⟨‹_›, rfl⟩
  · exact .inr ⟨‹_›, rfl⟩

/-- `DECODE` consumes the request and leaves the detector alone (42_decode.md R130). -/
theorem exec_decode_owedOperations {s t : State} (h : exec .decode s = .next t) :
    owedOperations s = owedOperations t + s.pending.toNat := by
  rw [exec_decode_frame h]
  simp [owedOperations]

/-- A word adds at most the two operations of one sealed frame. -/
theorem exec_owedOperations_le {i : Instr} {s t : State} (h : exec i s = .next t) : owedOperations t ≤ owedOperations s + 2 := by
  by_cases hi : i = .handoff
  · subst hi
    have := exec_handoff_owedOperations h
    omega
  · have hpend := exec_pending_le hi h
    have hle := owedOperations_le t
    have hge : s.pending.toNat ≤ owedOperations s := Nat.le_add_left _ _
    omega

theorem performWord_owedOperations_le {w : OpWord} {s t : State} (h : performWord w s = .next t) :
    owedOperations t ≤ owedOperations s + 2 := by
  rcases performWord_cases w s with ⟨i, -, hp⟩ | ⟨e, -, hp⟩
  · exact exec_owedOperations_le (hp.symm.trans h)
  · obtain ⟨-, rfl⟩ := afterInit_eq_next_iff.mp (hp.symm.trans h)
    exact Nat.le_add_right _ 2

/-- A move of an agent that can move uses up a presented word, which adds less than it counted for, or an owed operation. -/
theorem agentMove_movesLeft_lt {a : Agent} {s t : State} (hr : agentReady s a = true) (h : agentMove a s = .next t) :
    movesLeft t < movesLeft s := by
  have hturns := (agentMove_keepsSchedule h).turns
  cases a with
  | outside =>
    obtain ⟨w, ws, hin⟩ := List.ne_nil_iff_exists_cons.mp (by simpa [agentReady] using hr : s.inputs ≠ [])
    have hp := (agentMove_outside hin).symm.trans h
    have hinputs : t.inputs = ws := (performWord_keepsSchedule hp).inputs
    have howed : owedOperations t ≤ owedOperations s + 2 :=
      performWord_owedOperations_le (s := { s with inputs := ws }) hp
    simp only [movesLeft, hturns, hinputs, hin, List.length_cons]
    omega
  | frameAssembler =>
    have he := (agentMove_frameAssembler hr).symm.trans h
    have hc : s.capState = .complete := of_decide_eq_true (Bool.and_eq_true_iff.mp hr).2
    have howed : owedOperations t < owedOperations s := by
      rcases exec_handoff_owedOperations he with ⟨-, ht⟩ | ⟨hn, -⟩
      · rw [ht, owedOperations, if_pos hc]
        omega
      · exact absurd hc hn
    simp only [movesLeft, hturns, (exec_keepsSchedule he).inputs]
    omega
  | decoder =>
    have he := (agentMove_decoder hr).symm.trans h
    have hp : s.pending = true := (Bool.and_eq_true_iff.mp hr).2
    have howed := exec_decode_owedOperations he
    simp only [movesLeft, hturns, (exec_keepsSchedule he).inputs, howed, hp, Bool.toNat_true]
    omega

theorem agentMove_movesLeft_le {a : Agent} {s t : State} (h : agentMove a s = .next t) : movesLeft t ≤ movesLeft s := by
  cases hr : agentReady s a with
  | false =>
    obtain rfl : s = t := Host.Outcome.next.inj ((agentMove_of_not_ready hr).symm.trans h)
    exact Nat.le_refl _
  | true => exact (agentMove_movesLeft_lt hr h).le

theorem movesLeft_eq_zero_of_no_agent {s : State} (hi : s.initialised = true) (ht : s.turns = []) (hr : readyAgents s = []) :
    movesLeft s = 0 := by
  have hnot (a : Agent) : agentReady s a = false := by
    have := mem_readyAgents (s := s) (a := a)
    simpa [hr] using this
  have hin := hnot .outside
  have hc := (agentReady_frameAssembler hi).symm.trans (hnot .frameAssembler)
  have hp := (agentReady_decoder hi).symm.trans (hnot .decoder)
  exact movesLeft_eq_zero_iff.mpr ⟨ht, by simpa [agentReady] using hin, of_decide_eq_false hc, hp⟩

/-- Until the machine rests, every step uses up a turn, a word or an owed operation. -/
theorem step_movesLeft_lt {s t : State} (hi : s.initialised = true) (hne : movesLeft s ≠ 0) (hs : step s = .next t) :
    movesLeft t < movesLeft s := by
  rcases step_agent_cases s with ⟨a, rest, ht, he⟩ | ⟨ht, hr, -⟩ | ⟨a, -, ha, he⟩
  · calc movesLeft t ≤ movesLeft { s with turns := rest } := agentMove_movesLeft_le (he.symm.trans hs)
      _ < movesLeft s := by simp [movesLeft, ht, owedOperations]
  · exact absurd (movesLeft_eq_zero_of_no_agent hi ht hr) hne
  · exact agentMove_movesLeft_lt (s := passOver a s) (agentReady_of_candidate ha) (he.symm.trans hs)

theorem runSteps_succ {s t : State} (h : step s = .next t) (n : Nat) : runSteps (n + 1) s = runSteps n t := by
  simp only [runSteps, h]

/-- A run of at most `movesLeft s` steps uses up all moves. -/
theorem exists_runSteps_movesLeft_eq_zero {s : State} (h : s.Inv) :
    ∃ n t, n ≤ movesLeft s ∧ runSteps n s = .next t ∧ t.Inv ∧ movesLeft t = 0 := by
  induction hm : movesLeft s using Nat.strongRecOn generalizing s with
  | ind m ih =>
    by_cases h0 : movesLeft s = 0
    · exact ⟨0, s, Nat.zero_le _, rfl, h, h0⟩
    · obtain ⟨u, hu⟩ := step_completes h.initialised
      have hlt := step_movesLeft_lt h.initialised h0 hu
      obtain ⟨n, t, hn, hrun, ht, hrest⟩ := ih _ (hm ▸ hlt) (stepKeepsInvariant s u h hu) rfl
      exact ⟨n + 1, t, by omega, (runSteps_succ hu n).trans hrun, ht, hrest⟩

/-- Settles O52: every step before rest lowers `movesLeft`, which is at most the bound. -/
theorem machineComesToRest : Obligations.MachineComesToRest := by
  intro s h
  obtain ⟨n, t, hn, hrun, ht, hrest⟩ := exists_runSteps_movesLeft_eq_zero h
  have howed := owedOperations_le s
  have hbit := Bool.toNat_le s.pending
  rw [movesLeft] at hn
  exact ⟨n, t, by omega, hrun, ht, movesLeft_eq_zero_iff.mp hrest⟩

/-! ### Unending executions (20_memory.md R65, R67) -/

theorem agentReady_offer {a : Agent} (ha : a ≠ .outside) (ws : List OpWord) (ms : List Agent) (s : State) :
    agentReady (offer ws ms s) a = agentReady s a := by
  cases a with
  | outside => exact absurd rfl ha
  | frameAssembler => rfl
  | decoder => rfl

/-- The state a step goes on to (the state itself where the step has no meaning, which is never so after an `INIT`). -/
def stepTarget (s : State) : State :=
  match step s with
  | .next t => t
  | .fault _ => s
  | .refused _ => s

theorem step_eq_stepTarget {s : State} (h : s.initialised = true) : step s = .next (stepTarget s) := by
  obtain ⟨t, hs⟩ := step_completes h
  simp only [stepTarget, hs]

/-- The execution from `s` in which the `n`-th step begins after `words n` and `moves n` arrived. -/
def executionFrom (words : Nat → List OpWord) (moves : Nat → List Agent) (s : State) : Nat → State
  | 0 => s
  | n + 1 => stepTarget (offer (words n) (moves n) (executionFrom words moves s n))

section
variable {words : Nat → List OpWord} {moves : Nat → List Agent} {states : Nat → State}

theorem executionFrom_initialised {s : State} (h : s.initialised = true) (n : Nat) : (executionFrom words moves s n).initialised = true := by
  induction n with
  | zero => exact h
  | succ n ih => exact step_initialised (s := offer (words n) (moves n) _) ih (step_eq_stepTarget ih)

theorem isExecution_executionFrom {s : State} (h : s.initialised = true) : IsExecution words moves (executionFrom words moves s) :=
  fun n => step_eq_stepTarget (s := offer (words n) (moves n) _) (executionFrom_initialised h n)

theorem IsExecution.initialised (he : IsExecution words moves states) (h0 : (states 0).initialised = true) (n : Nat) :
    (states n).initialised = true := by
  induction n with
  | zero => exact h0
  | succ n ih => exact step_initialised (s := stepBegin words moves states n) ih (he n)

/-- In a weakly fair execution no internal operation stays enabled: if it did, its agent would move, and that ends it. -/
theorem IsExecution.exists_not_ready (he : IsExecution words moves states) (hfair : WeaklyFair words moves states) {a : Agent}
    (ha : a ≠ .outside) (n : Nat) : ∃ m, n ≤ m ∧ agentReady (states m) a = false := by
  by_contra hno
  have hready (m : Nat) (hm : n ≤ m) : agentReady (states m) a = true := by
    by_contra hr
    exact hno ⟨m, hm, Bool.eq_false_of_not_eq_true hr⟩
  obtain ⟨m, hm, hnext⟩ := hfair a ha n fun m hm => (agentReady_offer ha _ _ _).trans (hready m hm)
  exact hno ⟨m + 1, by omega, step_serves ha hnext (he m)⟩

end

/-- Settles O57: neither internal operation stays enabled, and in an initialised state its guard is the waiting frame or the request. -/
theorem fairExecutionsServeWhatWaits : Obligations.FairExecutionsServeWhatWaits := by
  intro words moves states h0 he hfair n
  constructor
  · obtain ⟨m, hm, hr⟩ := he.exists_not_ready hfair (a := .frameAssembler) nofun n
    exact ⟨m, hm, of_decide_eq_false ((agentReady_frameAssembler (he.initialised h0 m)).symm.trans hr)⟩
  · obtain ⟨m, hm, hr⟩ := he.exists_not_ready hfair (a := .decoder) nofun n
    exact ⟨m, hm, (agentReady_decoder (he.initialised h0 m)).symm.trans hr⟩

/-! ### The free choice is weakly fair (20_memory.md R67; log 17) -/

/-- How often the free choice may still pass over an agent's enabled operation. -/
def patience (s : State) : Agent → Nat
  | .outside => 0
  | .frameAssembler => handoffPatience s
  | .decoder => decodePatience s

theorem patience_offer (a : Agent) (ws : List OpWord) (ms : List Agent) (s : State) : patience (offer ws ms s) a = patience s a := by
  cases a <;> rfl

theorem overdue_of_patience {s : State} {a : Agent} (ha : a ≠ .outside) (hr : agentReady s a = true) (hp : patience s a = 0) :
    overdue s a = true := by
  cases a with
  | outside => exact absurd rfl ha
  | frameAssembler => exact Bool.and_eq_true_iff.mpr ⟨hr, decide_eq_true hp⟩
  | decoder => exact Bool.and_eq_true_iff.mpr ⟨hr, decide_eq_true hp⟩

theorem ne_outside_of_overdue {s : State} {a : Agent} (h : overdue s a = true) : a ≠ .outside := by
  rintro rfl
  cases h

/-- Another agent's free move counts an enabled operation down, and its word leaves the count alone. -/
theorem patience_of_passOver {s t : State} {a b : Agent} (ha : a ≠ .outside) (hr : agentReady s a = true) (hba : b ≠ a)
    (hh : t.handoffWait = (passOver b s).handoffWait) (hd : t.decodeWait = (passOver b s).decodeWait) :
    patience t a = patience s a - 1 := by
  cases a with
  | outside => exact absurd rfl ha
  | frameAssembler =>
    rw [passOver_handoffWait, if_pos ⟨hr, hba⟩] at hh
    simp [patience, handoffPatience, hh]
  | decoder =>
    rw [passOver_decodeWait, if_pos ⟨hr, hba⟩] at hd
    simp [patience, decodePatience, hd]

/-- A step by free choice that passes over an enabled operation counts it down. -/
theorem step_patience {s t : State} {a : Agent} (ht : s.turns = []) (ha : a ≠ .outside) (hr : agentReady s a = true)
    (hn : nextAgent s ≠ some a) (hs : step s = .next t) : patience t a = patience s a - 1 := by
  rcases nextAgent_cases s with ⟨b, rest, ht', -⟩ | ⟨-, hnone, -⟩ | ⟨b, -, -, hb⟩
  · exact nomatch ht.symm.trans ht'
  · exact absurd (mem_readyAgents.mpr hr) (hnone ▸ List.not_mem_nil)
  · have hmove := (step_of_nextAgent hb).symm.trans hs
    rw [takeTurn_of_no_turn ht] at hmove
    have hk := agentMove_keepsSchedule hmove
    exact patience_of_passOver ha hr (fun e => hn (e ▸ hb)) hk.handoffWait hk.decodeWait

/-- By free choice an overdue operation moves if there is one. -/
theorem exists_nextAgent_overdue {s : State} {a : Agent} (ht : s.turns = []) (h : overdue s a = true) :
    ∃ b, nextAgent s = some b ∧ overdue s b = true := by
  rcases nextAgent_cases s with ⟨b, rest, ht', -⟩ | ⟨-, hnone, -⟩ | ⟨b, -, hb, hn⟩
  · exact nomatch ht.symm.trans ht'
  · exact absurd (overdue_ready h) (hnone ▸ List.not_mem_nil)
  · exact ⟨b, hn, (mem_candidates.mp hb).2 ⟨a, h⟩⟩

theorem eq_decoder_of_ne {a : Agent} (ho : a ≠ .outside) (hf : a ≠ .frameAssembler) : a = .decoder := by
  cases a <;> trivial

theorem eq_frameAssembler_of_ne {a : Agent} (ho : a ≠ .outside) (hd : a ≠ .decoder) : a = .frameAssembler := by
  cases a <;> trivial

/-- Beside an internal agent there is one other. -/
theorem internalAgent_unique {a b c : Agent} (ha : a ≠ .outside) (hb : b ≠ .outside) (hc : c ≠ .outside) (hba : b ≠ a) (hca : c ≠ a) :
    b = c := by
  cases a with
  | outside => exact absurd rfl ha
  | frameAssembler => exact (eq_decoder_of_ne hb hba).trans (eq_decoder_of_ne hc hca).symm
  | decoder => exact (eq_frameAssembler_of_ne hb hba).trans (eq_frameAssembler_of_ne hc hca).symm

section
variable {words : Nat → List OpWord} {moves : Nat → List Agent} {states : Nat → State}

/-- Where no move is recorded any more, each step uses up one of the turns that were. -/
theorem IsExecution.turns_eq_drop (he : IsExecution words moves states) {k : Nat} (hk : ∀ n, k ≤ n → moves n = []) (j : Nat) :
    (stepBegin words moves states (k + j)).turns = (stepBegin words moves states k).turns.drop j := by
  induction j with
  | zero => rfl
  | succ j ih =>
    calc (stepBegin words moves states (k + j + 1)).turns
        = (states (k + j + 1)).turns := by simp [stepBegin, hk (k + j + 1) (by omega)]
      _ = (stepBegin words moves states (k + j)).turns.tail := step_turns (he (k + j))
      _ = (stepBegin words moves states k).turns.drop (j + 1) := by rw [ih, List.tail_drop]

theorem IsExecution.eventually_no_turn (he : IsExecution words moves states) {k : Nat} (hk : ∀ n, k ≤ n → moves n = []) :
    ∃ N, ∀ m, N ≤ m → (stepBegin words moves states m).turns = [] := by
  refine ⟨k + (stepBegin words moves states k).turns.length, fun m hm => ?_⟩
  obtain ⟨j, rfl⟩ := Nat.exists_eq_add_of_le (Nat.le_of_add_right_le hm)
  rw [he.turns_eq_drop hk, List.drop_eq_nil_of_le (by omega)]

/-- From `N` on no turn is recorded, and the operation of `a` is enabled and passed over. -/
structure PassedOverFrom (words : Nat → List OpWord) (moves : Nat → List Agent) (states : Nat → State) (a : Agent) (N : Nat) : Prop where
  internal : a ≠ .outside
  noTurn : ∀ m, N ≤ m → (stepBegin words moves states m).turns = []
  ready : ∀ m, N ≤ m → agentReady (stepBegin words moves states m) a = true
  notNext : ∀ m, N ≤ m → nextAgent (stepBegin words moves states m) ≠ some a

variable {a : Agent} {N : Nat}

theorem PassedOverFrom.patience_eq (h : PassedOverFrom words moves states a N) (he : IsExecution words moves states) (j : Nat) :
    patience (stepBegin words moves states (N + j)) a = patience (stepBegin words moves states N) a - j := by
  induction j with
  | zero => rfl
  | succ j ih =>
    have hle : N ≤ N + j := Nat.le_add_right N j
    calc patience (stepBegin words moves states (N + j + 1)) a
        = patience (states (N + j + 1)) a := patience_offer a _ _ _
      _ = patience (stepBegin words moves states (N + j)) a - 1 :=
        step_patience (h.noTurn _ hle) h.internal (h.ready _ hle) (h.notNext _ hle) (he (N + j))
      _ = patience (stepBegin words moves states N) a - (j + 1) := by rw [ih]; omega

/-- Once its patience is used up, `a` is passed over only for the other internal agent, overdue too. -/
theorem PassedOverFrom.other_moves (h : PassedOverFrom words moves states a N) (he : IsExecution words moves states) {j : Nat}
    (hj : patience (stepBegin words moves states N) a ≤ j) :
    ∃ b, b ≠ a ∧ nextAgent (stepBegin words moves states (N + j)) = some b ∧ overdue (stepBegin words moves states (N + j)) b = true := by
  have hle : N ≤ N + j := Nat.le_add_right N j
  have hzero : patience (stepBegin words moves states (N + j)) a = 0 := by rw [h.patience_eq he]; omega
  obtain ⟨b, hnext, hlate⟩ :=
    exists_nextAgent_overdue (h.noTurn _ hle) (overdue_of_patience h.internal (h.ready _ hle) hzero)
  exact ⟨b, fun e => h.notNext _ hle (e ▸ hnext), hnext, hlate⟩

/-- The other internal agent cannot be overdue twice in a row, since its move makes its guard false. -/
theorem not_passedOverFrom (he : IsExecution words moves states) : ¬ PassedOverFrom words moves states a N := by
  intro h
  obtain ⟨b, hba, hb, hlateb⟩ := h.other_moves he (Nat.le_refl _)
  obtain ⟨c, hca, -, hlatec⟩ := h.other_moves he (Nat.le_succ _)
  obtain rfl := internalAgent_unique h.internal (ne_outside_of_overdue hlateb) (ne_outside_of_overdue hlatec) hba hca
  have hready := mem_readyAgents.mp (overdue_ready hlatec)
  have hserved := step_serves (ne_outside_of_overdue hlateb) hb (he _)
  rw [stepBegin, agentReady_offer (ne_outside_of_overdue hlateb)] at hready
  exact nomatch hserved.symm.trans hready

theorem IsExecution.weaklyFair (he : IsExecution words moves states) {k : Nat} (hk : ∀ n, k ≤ n → moves n = []) :
    WeaklyFair words moves states := by
  intro a ha n hready
  obtain ⟨N, hN⟩ := he.eventually_no_turn hk
  by_contra hno
  exact not_passedOverFrom (N := max n N) he
    { internal := ha
      noTurn := fun m hm => hN m (le_of_max_le_right hm)
      ready := fun m hm => hready m (le_of_max_le_left hm)
      notNext := fun m hm hnext => hno ⟨m, le_of_max_le_left hm, hnext⟩ }

end

/-- Settles O56: steps go on for ever, and an operation passed over becomes overdue, after which only the other internal one can precede it, once. -/
theorem freeChoiceIsWeaklyFair : Obligations.FreeChoiceIsWeaklyFair := fun words moves =>
  ⟨fun s h => ⟨executionFrom words moves s, rfl, isExecution_executionFrom h⟩, fun ⟨_, hk⟩ _ he => he.weaklyFair hk⟩

end Sys2Proof.Machine

/-! ## 30_encoding.md: decode and encode, which words are refused, and the answers -/

namespace Sys2Proof

/-! ### The fields of a word and of an `INIT` operand by division (30_encoding.md R80, R82) -/

theorem opcodeOf_toNat (w : OpWord) : (opcodeOf w).toNat = w.toNat / 2 ^ 32 := by
  rw [opcodeOf, BitVec.extractLsb'_toNat, Nat.shiftRight_eq_div_pow]
  omega

theorem operandOf_toNat (w : OpWord) : (operandOf w).toNat = w.toNat % 2 ^ 32 := by
  rw [operandOf, BitVec.extractLsb'_toNat, Nat.shiftRight_zero]

theorem extractLsb'_eq_zero_iff {n : Nat} (x : BitVec n) (start len : Nat) :
    x.extractLsb' start len = 0 ↔ x.toNat / 2 ^ start % 2 ^ len = 0 := by
  rw [← BitVec.toNat_inj, BitVec.extractLsb'_toNat, Nat.shiftRight_eq_div_pow]
  rfl

theorem fieldReserved_eq_zero_iff (x : BitVec 32) : fieldReserved x = 0 ↔ x.toNat / 2 ^ 24 % 2 ^ 6 = 0 :=
  extractLsb'_eq_zero_iff x 24 6

theorem fieldF_eq_zero_iff (x : BitVec 32) : fieldF x = 0 ↔ x.toNat / 2 ^ 16 % 2 ^ 8 = 0 :=
  extractLsb'_eq_zero_iff x 16 8

theorem fieldL_eq_zero_iff (x : BitVec 32) : fieldL x = 0 ↔ x.toNat % 2 ^ 16 = 0 := by
  rw [fieldL, extractLsb'_eq_zero_iff, Nat.pow_zero, Nat.div_one]

/-! ### The decoder, one equation a format (30_encoding.md R81 to R83) -/

/-- The rows of R81 whose operand has format `Z`. -/
def formatZ : List (BitVec 4 × Instr) :=
  [(0x2, .start), (0x3, .stop), (0x4, .rdtemp), (0x5, .rderr), (0x9, .longp), (0xA, .handoff), (0xB, .decode)]

/-- The opcodes with no row in R81. -/
def reservedOpcodes : List (BitVec 4) := [0x0, 0x6, 0x7, 0xC, 0xD, 0xE, 0xF]

/-- Every opcode is that of `INIT`, of a format `Z` operation or of `EDGE`, or reserved. -/
theorem opcode_cases : ∀ o : BitVec 4, o = 0x1 ∨ (∃ p ∈ formatZ, o = p.1) ∨ o = 0x8 ∨ o ∈ reservedOpcodes := by decide

theorem decodeWord_init (x : BitVec 32) : decodeWord (opWord 0x1 x) = decodeI x := by
  simp [decodeWord]

theorem decodeWord_edge (x : BitVec 32) : decodeWord (opWord 0x8 x) = .ok (.edge x) := by
  simp [decodeWord]

theorem decodeWord_formatZ (x : BitVec 32) : ∀ p ∈ formatZ, decodeWord (opWord p.1 x) = decodeZ p.2 x := by
  simp [formatZ, decodeWord]

theorem decodeWord_reserved (x : BitVec 32) : ∀ o ∈ reservedOpcodes, decodeWord (opWord o x) = .error .reservedOpcode := by
  simp [reservedOpcodes, decodeWord]

/-! ### Decode and encode agree (30_encoding.md R80 to R83) -/

theorem formatZ_legal : ∀ p ∈ formatZ, p.2.wellFormed = true ∧ encode p.2 = opWord p.1 0 := by decide

theorem wellFormed_init_iff {a r : Bool} {f : BitVec 8} {l : BitVec 16} :
    (Instr.init a r f l).wellFormed = true ↔ f ≠ 0 ∧ l ≠ 0 := by
  simp only [Instr.wellFormed, Bool.and_eq_true, bne_iff_ne]

theorem decodeWord_encode_init (a r : Bool) {f : BitVec 8} {l : BitVec 16} (hf : f ≠ 0) (hl : l ≠ 0) :
    decodeWord (encode (.init a r f l)) = .ok (.init a r f l) := by
  rw [encode, decodeWord_init, decodeI_eq_ok, fieldReserved_operandI, fieldF_operandI, fieldL_operandI,
    fieldS_operandI, fieldR_operandI]
  exact ⟨rfl, hf, hl, rfl⟩

/-- Settles O2: `INIT` and `EDGE` read their operand's fields back; the other words are constants and decode by evaluation. -/
theorem decodeOfEncodeIsInstruction : Obligations.DecodeOfEncodeIsInstruction := by
  intro i hi
  cases i with
  | init a r f l =>
    obtain ⟨hf, hl⟩ := wellFormed_init_iff.mp hi
    exact decodeWord_encode_init a r hf hl
  | edge v => exact decodeWord_edge v
  | start | stop | rdtemp | rderr | longp | handoff | decode => rfl

/-- Settles O3: by the word's opcode, the operand is the one its format puts together from the fields. -/
theorem encodeOfDecodedWordIsWord : Obligations.EncodeOfDecodedWordIsWord := by
  intro w i h
  rw [← opWord_parts w] at h ⊢
  rcases opcode_cases (opcodeOf w) with ho | ⟨p, hp, ho⟩ | ho | ho
  · rw [ho, decodeWord_init, decodeI_eq_ok] at h
    obtain ⟨hreserved, hf, hl, rfl⟩ := h
    exact ⟨wellFormed_init_iff.mpr ⟨hf, hl⟩, by rw [encode, operandI_fields _ hreserved, ho]⟩
  · rw [ho, decodeWord_formatZ _ p hp, decodeZ_eq_ok] at h
    obtain ⟨hx, rfl⟩ := h
    rw [ho, hx]
    exact formatZ_legal p hp
  · rw [ho, decodeWord_edge] at h
    cases h
    exact ⟨rfl, by rw [encode, ho]⟩
  · rw [decodeWord_reserved _ _ ho] at h
    cases h

/-! ### Which words are refused (30_encoding.md R86) -/

theorem exists_decodeZ_eq_error_iff {i : Instr} {x : BitVec 32} : (∃ e, decodeZ i x = .error e) ↔ x.toNat ≠ 0 := by
  have hzero : x = 0 ↔ x.toNat = 0 := BitVec.toNat_inj.symm
  rw [decodeZ, Ne, ← hzero]
  split <;> simp_all

theorem exists_decodeI_eq_error_iff {x : BitVec 32} :
    (∃ e, decodeI x = .error e) ↔
      x.toNat / 2 ^ 24 % 2 ^ 6 ≠ 0 ∨ x.toNat / 2 ^ 16 % 2 ^ 8 = 0 ∨ x.toNat % 2 ^ 16 = 0 := by
  rw [Ne, ← fieldReserved_eq_zero_iff, ← fieldF_eq_zero_iff, ← fieldL_eq_zero_iff, decodeI]
  split
  · simp_all
  · split
    · simp_all
    · split <;> simp_all

theorem formatZ_opcode : ∀ p ∈ formatZ, p.1.toNat ∈ [2, 3, 4, 5, 9, 10, 11] := by decide

theorem reservedOpcodes_toNat : ∀ o ∈ reservedOpcodes, o.toNat = 0 ∨ o.toNat = 6 ∨ o.toNat = 7 ∨ 12 ≤ o.toNat := by decide

theorem exists_decodeWord_eq_error_iff (o : BitVec 4) (x : BitVec 32) :
    (∃ e, decodeWord (opWord o x) = .error e) ↔
      (o.toNat = 0 ∨ o.toNat = 6 ∨ o.toNat = 7 ∨ 12 ≤ o.toNat) ∨
      (o.toNat ∈ [2, 3, 4, 5, 9, 10, 11] ∧ x.toNat ≠ 0) ∨
      (o.toNat = 1 ∧ (x.toNat / 2 ^ 24 % 2 ^ 6 ≠ 0 ∨ x.toNat / 2 ^ 16 % 2 ^ 8 = 0 ∨ x.toNat % 2 ^ 16 = 0)) := by
  rcases opcode_cases o with rfl | ⟨p, hp, rfl⟩ | rfl | ho
  · rw [decodeWord_init, exists_decodeI_eq_error_iff]
    simp
  · have hopc := formatZ_opcode p hp
    rw [decodeWord_formatZ x p hp, exists_decodeZ_eq_error_iff]
    simp only [List.mem_cons, List.not_mem_nil, or_false] at hopc ⊢
    omega
  · rw [decodeWord_edge]
    simp
  · exact iff_of_true ⟨_, decodeWord_reserved x o ho⟩ (.inl (reservedOpcodes_toNat o ho))

end Sys2Proof

namespace Sys2Proof.Machine

theorem performWord_encode {i : Instr} (h : i.wellFormed = true) (s : State) : performWord (encode i) s = exec i s :=
  performWord_of_decode (decodeOfEncodeIsInstruction i h) s

/-- Settles O4: the iff is the decoder's, opcode by opcode; each answer is the one its operation's equation gives. -/
theorem refusedWordsChangeNothing : Obligations.RefusedWordsChangeNothing := by
  refine ⟨fun w => ?_, fun w s hi ⟨e, he⟩ => ?_, fun s hi hc => ?_, fun s hi hp => ?_⟩
  · have h := exists_decodeWord_eq_error_iff (opcodeOf w) (operandOf w)
    rwa [opWord_parts, opcodeOf_toNat, operandOf_toNat] at h
  · exact (performWord_of_error he s).trans (afterInit_of_initialised hi _)
  · exact (performWord_encode (i := .handoff) rfl s).trans (exec_handoff_eq_next_iff.mpr ⟨hi, by rw [if_neg hc]; rfl⟩)
  · exact (performWord_encode (i := .decode) rfl s).trans (exec_decode_eq_next_iff.mpr ⟨hi, by rw [if_neg (Bool.eq_false_iff.mp hp)]; rfl⟩)

/-! ### The answers (30_encoding.md R84, R85) -/

/-- The answers an instruction can give in the state `s`, one constructor a line of R85. -/
inductive Answers (s : State) : Instr → Response → Prop where
  | done {i : Instr} (hrdtemp : i ≠ .rdtemp) (hrderr : i ≠ .rderr) : Answers s i ⟨.ok, 0⟩
  | temperature : Answers s .rdtemp ⟨.ok, (medianCode s).setWidth 32⟩
  | errors : Answers s .rderr ⟨.ok, s.errorcount⟩
  | stopped (hrun : s.running = false) : Answers s .rdtemp ⟨.notRunning, 0⟩
  | faulted {k : FaultKind} (hfsm : s.fsm = .faulted k) : Answers s .rdtemp ⟨kindStatus k, 0⟩
  | noReading (hseen : s.seenValid = false) : Answers s .rderr ⟨.noReading, 0⟩
  | noFrame (hcap : s.capState ≠ .complete) : Answers s .handoff ⟨.notEnabled, 0⟩
  | noRequest (hpending : s.pending = false) : Answers s .decode ⟨.notEnabled, 0⟩
  | illegal {i : Instr} (hlegal : i.wellFormed = false) : Answers s i ⟨.refused, 0⟩

theorem exec_answers {i : Instr} {s t : State} (h : exec i s = .next t) : Answers s i t.response := by
  cases i with
  | init a r f l =>
    obtain ⟨hfl, -, rfl⟩ | ⟨-, rfl⟩ := exec_init_eq_next_iff.mp h
    · exact .illegal (Bool.eq_false_iff.mpr fun hlegal => not_or.mpr (wellFormed_init_iff.mp hlegal) hfl)
    · exact .done nofun nofun
  | start =>
    obtain ⟨-, rfl⟩ := exec_start_eq_next_iff.mp h
    exact .done nofun nofun
  | stop =>
    obtain ⟨-, rfl⟩ := exec_stop_eq_next_iff.mp h
    exact .done nofun nofun
  | rdtemp =>
    obtain ⟨-, ⟨hrun, rfl⟩ | ⟨k, -, hfsm, rfl⟩ | ⟨-, -, rfl⟩⟩ := exec_rdtemp_eq_next_iff.mp h
    · exact .stopped hrun
    · exact .faulted hfsm
    · exact .temperature
  | rderr =>
    obtain ⟨-, rfl⟩ := exec_rderr_eq_next_iff.mp h
    split
    · exact .errors
    · next hseen => exact .noReading (Bool.eq_false_iff.mpr hseen)
  | edge v =>
    obtain ⟨-, rfl⟩ := exec_edge_eq_next_iff.mp h
    exact .done nofun nofun
  | longp =>
    obtain ⟨-, rfl⟩ := exec_longp_eq_next_iff.mp h
    exact .done nofun nofun
  | handoff =>
    obtain ⟨-, rfl⟩ := exec_handoff_eq_next_iff.mp h
    split
    · exact .done nofun nofun
    · next hcap => exact .noFrame hcap
  | decode =>
    obtain ⟨-, rfl⟩ := exec_decode_eq_next_iff.mp h
    split
    · exact .done nofun nofun
    · next hpending => exact .noRequest (Bool.eq_false_iff.mpr hpending)

theorem setWidth_rawCode_fields (c : RawCode) : (c.setWidth 32).toNat % 2 ^ 11 = c.toNat ∧ (c.setWidth 32).toNat / 2 ^ 11 = 0 := by
  have := c.isLt
  rw [BitVec.toNat_setWidth]
  omega

/-- Settles O6: each status and its data are read off the answers an instruction can give. -/
theorem answersFollowTheStatusTable : Obligations.AnswersFollowTheStatusTable := by
  intro i s t h
  have hanswer := exec_answers h
  generalize t.response = r at hanswer
  cases hanswer with
  | done hrdtemp hrderr => simp [hrdtemp, hrderr]
  | temperature => simpa using setWidth_rawCode_fields (medianCode s)
  | errors => simp
  | stopped hrun => simp [hrun]
  | @faulted k hfsm => cases k <;> simp [kindStatus, hfsm]
  | noReading hseen => simp [hseen]
  | noFrame hcap => simp [hcap]
  | noRequest hpending => simp [hpending]
  | illegal hlegal => simp [hlegal]

/-- Settles O11: every word goes on, and no operation ends the initialised state. -/
theorem everyWordCompletesAfterInit : Obligations.EveryWordCompletesAfterInit := by
  intro w s hi
  obtain ⟨t, ht⟩ := performWord_completes hi w
  exact ⟨t, ht, (performWord_keepsSchedule ht).initialised hi⟩

/-- Settles O1: the decoder evaluated on each listed word. -/
theorem specWordsDecode : Obligations.SpecWordsDecode := by
  unfold Obligations.SpecWordsDecode
  decide

/-- A response word has the layout of an operation word, the status at the opcode's place. -/
theorem responseWord_eq_opWord (r : Response) : responseWord r = opWord (statusCode r.status) r.data := rfl

/-- Settles O5: the two fields of a word put together, and the table of codes. -/
theorem responseWordLayout : Obligations.ResponseWordLayout := by
  refine ⟨fun r => ?_, rfl⟩
  rw [responseWord_eq_opWord, ← opcodeOf_toNat, ← operandOf_toNat, opcodeOf_opWord, operandOf_opWord]
  exact ⟨rfl, rfl⟩

end Sys2Proof.Machine

/-! ## 40_capture.md: samples, the stop condition, sealed frames, torn frames and overruns -/

namespace Sys2Proof.Machine

/-! ### The word of an operation as a number (30_encoding.md R80) -/

theorem opWord_toNat (o : BitVec 4) (x : BitVec 32) : (opWord o x).toNat = o.toNat * 2 ^ 32 + x.toNat := by
  have hdiv := opcodeOf_toNat (opWord o x)
  have hmod := operandOf_toNat (opWord o x)
  rw [opcodeOf_opWord] at hdiv
  rw [operandOf_opWord] at hmod
  omega

/-! ### `EDGE` and `LONGP` by the state of the detector (40_capture.md R100, R101, R105) -/

/-- Below its last element a transmission goes on alike over an unsealed and over a sealed frame. -/
theorem captureSample_of_advancing {s : State} (v : Interval) (hc : s.capState ≠ .idle) (hw : s.wpos ≠ 13) :
    captureSample v s = { writeActive s.wpos v s with wpos := s.wpos + 1 } := by
  cases hcap : s.capState with
  | idle => exact absurd hcap hc
  | capturing => exact captureSample_of_capturing v hcap hw
  | complete => exact captureSample_of_complete v hcap hw

section
variable {s : State} (hi : s.initialised = true)
include hi

theorem exec_edge_of_stopped (hr : s.running = false) (v : Interval) : exec (.edge v) s = .next { s with response := ⟨.ok, 0⟩ } :=
  exec_edge_eq_next_iff.mpr ⟨hi, by rw [if_neg (Bool.eq_false_iff.mp hr)]; rfl⟩

theorem exec_longp_of_stopped (hr : s.running = false) : exec .longp s = .next { s with response := ⟨.ok, 0⟩ } :=
  exec_longp_eq_next_iff.mpr ⟨hi, by rw [if_neg (Bool.eq_false_iff.mp hr)]; rfl⟩

variable (hr : s.running = true)
include hr

theorem exec_edge_of_running (v : Interval) : exec (.edge v) s = .next (respond .ok 0 (captureSample v s)) :=
  exec_edge_eq_next_iff.mpr ⟨hi, by rw [if_pos hr]⟩

theorem exec_longp_of_running : exec .longp s = .next (respond .ok 0 (captureLongPulse s)) :=
  exec_longp_eq_next_iff.mpr ⟨hi, by rw [if_pos hr]⟩

theorem exec_edge_of_idle (hc : s.capState = .idle) (v : Interval) :
    exec (.edge v) s = .next { s with active := s.active.set 0 v, wpos := 1, capState := .capturing, response := ⟨.ok, 0⟩ } := by
  rw [exec_edge_of_running hi hr, captureSample_of_idle v hc]
  rfl

theorem exec_edge_of_advancing (hc : s.capState ≠ .idle) {k : Fin 14} (hw : s.wpos = k) (hk : k ≠ 13) (v : Interval) :
    exec (.edge v) s = .next { s with active := s.active.set k v, wpos := k + 1, response := ⟨.ok, 0⟩ } := by
  subst hw
  rw [exec_edge_of_running hi hr, captureSample_of_advancing v hc hk]
  rfl

theorem exec_edge_of_capturing_last (hc : s.capState = .capturing) (hw : s.wpos = 13) (v : Interval) :
    exec (.edge v) s = .next
      { s with active := s.active.set 13 v, sealedLen := 14, wpos := 0, capState := .complete, response := ⟨.ok, 0⟩ } := by
  rw [exec_edge_of_running hi hr, captureSample_of_capturing_last v hc hw, hw]
  rfl

theorem exec_edge_of_complete_last (hc : s.capState = .complete) (hw : s.wpos = 13) (v : Interval) :
    exec (.edge v) s = .next { s with active := s.active.set 13 v, sealedLen := 0, wpos := 0, response := ⟨.ok, 0⟩ } := by
  rw [exec_edge_of_running hi hr, captureSample_of_complete_last v hc hw, hw, captureOverrun, ← hc]
  rfl

theorem exec_longp_of_idle (hc : s.capState = .idle) : exec .longp s = .next { s with response := ⟨.ok, 0⟩ } := by
  rw [exec_longp_of_running hi hr, captureLongPulse_of_idle hc]
  rfl

theorem exec_longp_of_capturing (hc : s.capState = .capturing) :
    exec .longp s = .next
      { s with sealedLen := s.wpos.castSucc, wpos := 0, capState := .complete, response := ⟨.ok, 0⟩ } := by
  rw [exec_longp_of_running hi hr, captureLongPulse_of_capturing hc]
  rfl

theorem exec_longp_of_complete_rest (hc : s.capState = .complete) (hw : s.wpos = 0) :
    exec .longp s = .next { s with response := ⟨.ok, 0⟩ } := by
  rw [exec_longp_of_running hi hr, captureLongPulse_of_complete_rest hc hw]
  rfl

theorem exec_longp_of_complete (hc : s.capState = .complete) (hw : s.wpos ≠ 0) :
    exec .longp s = .next { s with sealedLen := 0, wpos := 0, response := ⟨.ok, 0⟩ } := by
  rw [exec_longp_of_running hi hr, captureLongPulse_of_complete hc hw, captureOverrun, ← hc]
  rfl

end

/-- Settles O26: one equation a case of the detector; the two cases below element 13 share theirs. -/
theorem edgeFollowsTheDetector : Obligations.EdgeFollowsTheDetector := by
  refine ⟨fun v => opWord_toNat 0x8 v, fun v s hi =>
    ⟨fun hr => exec_edge_of_stopped hi hr v, fun hr hc => exec_edge_of_idle hi hr hc v, fun hr hc hw => ?_,
      fun hr hc hw => exec_edge_of_capturing_last hi hr hc hw v, fun hr hc hw => ?_,
      fun hr hc hw => exec_edge_of_complete_last hi hr hc hw v⟩⟩
  · exact exec_edge_of_advancing hi hr (by simp [hc]) rfl hw v
  · exact exec_edge_of_advancing hi hr (by simp [hc]) rfl hw v

/-- Settles O28: one equation a case of the detector. -/
theorem longpFollowsTheDetector : Obligations.LongpFollowsTheDetector :=
  ⟨by decide, fun s hi =>
    ⟨exec_longp_of_stopped hi, exec_longp_of_idle hi, fun hr hc => ⟨s.wpos.castSucc, rfl, exec_longp_of_capturing hi hr hc⟩,
      exec_longp_of_complete_rest hi, exec_longp_of_complete hi⟩⟩

/-- Settles O29: while stopped neither word reads the detector. -/
theorem stoppedCaptureIgnoresWords : Obligations.StoppedCaptureIgnoresWords := fun v _ hi hr =>
  ⟨exec_edge_of_stopped hi hr v, exec_longp_of_stopped hi hr⟩

/-! ### Sequences of operations -/

theorem execAll_singleton (i : Instr) (s : State) : execAll [i] s = exec i s := by
  rw [execAll]
  cases exec i s <;> rfl

theorem execAll_cons_of_next {i : Instr} {s t : State} (h : exec i s = .next t) (is : List Instr) :
    execAll (i :: is) s = execAll is t := by
  rw [execAll, h]

theorem execAll_append_of_next {is : List Instr} {s t : State} (h : execAll is s = .next t) (js : List Instr) :
    execAll (is ++ js) s = execAll js t := by
  induction is generalizing s with
  | nil =>
    cases h
    rfl
  | cons i is ih =>
    rw [execAll] at h
    cases hx : exec i s with
    | next u =>
      rw [hx] at h
      rw [List.cons_append, execAll_cons_of_next hx, ih h]
    | fault f => exact nomatch f
    | refused r =>
      rw [hx] at h
      cases h

/-! ### A buffer while a transmission overwrites it -/

/-- The buffer `old` after the first `k` samples of `vs` have been written over it. -/
def overwritten (vs old : Buffer) (k : Nat) : Buffer := Vector.ofFn fun j : Fin 14 => if j.val < k then vs[j] else old[j]

theorem getElem_overwritten (vs old : Buffer) (k : Nat) {j : Nat} (hj : j < 14) :
    (overwritten vs old k)[j] = if j < k then vs[j] else old[j] := by
  simp only [overwritten, Vector.getElem_ofFn, Fin.getElem_fin]

theorem overwritten_zero (vs old : Buffer) : overwritten vs old 0 = old := by
  ext1 j hj
  rw [getElem_overwritten, if_neg (Nat.not_lt_zero j)]

theorem overwritten_full (vs old : Buffer) : overwritten vs old 14 = vs := by
  ext1 j hj
  rw [getElem_overwritten, if_pos hj]

theorem set_overwritten (vs old : Buffer) {k : Nat} (hk : k < 14) :
    (overwritten vs old k).set k vs[k] = overwritten vs old (k + 1) := by
  ext1 j hj
  rw [Vector.getElem_set, getElem_overwritten, getElem_overwritten]
  split
  · next h =>
    subst h
    exact (if_pos k.lt_succ_self).symm
  · next h => exact if_congr (by omega) rfl rfl

/-! ### A transmission, sample by sample (40_capture.md R100, R102, R106) -/

theorem take_map_edge_succ (vs : Buffer) {k : Nat} (hk : k < 14) :
    (vs.toList.take (k + 1)).map Instr.edge = (vs.toList.take k).map .edge ++ [.edge vs[k]] := by
  rw [List.take_succ_eq_append_getElem (by simpa using hk), List.map_append, Vector.getElem_toList]
  rfl

/-- Where a transmission can start while running: the detector at rest, or a sealed frame with no sample since. -/
structure State.TransmissionStart (s : State) : Prop where
  initialised : s.initialised = true
  running : s.running = true
  detector : s.capState = .idle ∨ s.capState = .complete ∧ s.wpos = 0

/-- The state `s` in which a transmission started, after its first `k` samples (of 1 to 13). -/
def afterSamples (vs : Buffer) (k : Fin 14) (s : State) : State :=
  { s with
    active := overwritten vs s.active k.val
    wpos := k
    capState := if s.capState = .idle then .capturing else s.capState
    response := ⟨.ok, 0⟩ }

theorem afterSamples_of_idle (vs : Buffer) (k : Fin 14) {s : State} (hc : s.capState = .idle) :
    afterSamples vs k s =
      { s with active := overwritten vs s.active k.val, wpos := k, capState := .capturing, response := ⟨.ok, 0⟩ } := by
  rw [afterSamples, if_pos hc]

theorem afterSamples_of_complete (vs : Buffer) (k : Fin 14) {s : State} (hc : s.capState = .complete) :
    afterSamples vs k s = { s with active := overwritten vs s.active k.val, wpos := k, response := ⟨.ok, 0⟩ } := by
  rw [afterSamples, if_neg (by simp [hc])]

/-- Before its first sample a transmission over a sealed frame has changed nothing but the answer. -/
theorem afterSamples_zero_of_complete (vs : Buffer) {s : State} (hc : s.capState = .complete) (hw : s.wpos = 0) :
    afterSamples vs 0 s = { s with response := ⟨.ok, 0⟩ } := by
  rw [afterSamples_of_complete vs 0 hc]
  simp only [Fin.val_zero, overwritten_zero, hw]

theorem afterSamples_capState_ne_idle (vs : Buffer) (k : Fin 14) (s : State) : (afterSamples vs k s).capState ≠ .idle := by
  unfold afterSamples
  split
  · exact nofun
  · assumption

section
variable {s : State} (h : s.TransmissionStart) (vs : Buffer)
include h

/-- The first sample is written at 0 over either frame. -/
theorem exec_edge_first : exec (.edge vs[0]) s = .next (afterSamples vs 1 s) := by
  have hset : s.active.set 0 vs[0] = overwritten vs s.active 1 := by
    simpa only [overwritten_zero] using set_overwritten vs s.active (k := 0) (by omega)
  rcases h.detector with hc | ⟨hc, hw⟩
  · rw [exec_edge_of_idle h.initialised h.running hc, hset, afterSamples_of_idle vs 1 hc]
    rfl
  · rw [exec_edge_of_advancing h.initialised h.running (by simp [hc]) hw (by decide), afterSamples_of_complete vs 1 hc]
    exact congrArg (fun b => Host.Outcome.next { s with active := b, wpos := 1, response := ⟨.ok, 0⟩ }) hset

theorem exec_edge_afterSamples (i : Fin 13) :
    exec (.edge vs[i.val]) (afterSamples vs i.castSucc s) = .next (afterSamples vs i.succ s) := by
  rw [exec_edge_of_advancing (s := afterSamples vs i.castSucc s) h.initialised h.running
    (afterSamples_capState_ne_idle vs _ s) (k := i.castSucc) rfl (Fin.castSucc_ne_last i), Fin.coeSucc_eq_succ]
  simp only [afterSamples, Fin.val_castSucc, Fin.val_succ, set_overwritten]

theorem execAll_samples {k : Fin 14} (hk : k ≠ 0) :
    execAll ((vs.toList.take k).map .edge) s = .next (afterSamples vs k s) := by
  induction k using Fin.induction with
  | zero => exact absurd rfl hk
  | succ i ih =>
    rw [Fin.val_succ, take_map_edge_succ vs (by omega)]
    by_cases hi : i = 0
    · subst hi
      exact (execAll_singleton _ s).trans (exec_edge_first h vs)
    · have hprev := ih (Fin.castSucc_ne_zero_iff.mpr hi)
      rw [Fin.val_castSucc] at hprev
      rw [execAll_append_of_next hprev, execAll_singleton, exec_edge_afterSamples h vs i]

theorem execAll_samples_then {k : Fin 14} (hk : k ≠ 0) (i : Instr) :
    execAll ((vs.toList.take k).map .edge ++ [i]) s = exec i (afterSamples vs k s) := by
  rw [execAll_append_of_next (execAll_samples h vs hk), execAll_singleton]

theorem execAll_all_samples : execAll (vs.toList.map .edge) s = exec (.edge vs[13]) (afterSamples vs 13 s) := by
  have hall : vs.toList.map Instr.edge = (vs.toList.take 13).map .edge ++ [.edge vs[13]] := by
    rw [← take_map_edge_succ vs (by omega), List.take_of_length_le (by simp)]
  rw [hall]
  exact execAll_samples_then h vs (k := 13) (by decide) _

end

/-- The fourteenth sample completes the new frame. -/
theorem set_overwritten_last (vs old : Buffer) : (overwritten vs old (13 : Fin 14).val).set 13 vs[13] = vs :=
  (set_overwritten vs old (k := 13) (by omega)).trans (overwritten_full vs old)

/-- A frame seals with its fourteenth sample (40_capture.md R103). -/
theorem execAll_all_samples_of_idle {s : State} (hi : s.initialised = true) (hr : s.running = true) (hc : s.capState = .idle)
    (vs : Buffer) :
    execAll (vs.toList.map .edge) s =
      .next { s with active := vs, wpos := 0, sealedLen := 14, capState := .complete, response := ⟨.ok, 0⟩ } := by
  have hlast := exec_edge_of_capturing_last (s := afterSamples vs 13 s) hi hr (if_pos hc) rfl vs[13]
  rw [execAll_all_samples ⟨hi, hr, .inl hc⟩ vs, hlast]
  simp only [afterSamples, set_overwritten_last]

/-- The fourteenth sample over a sealed frame is an overrun (40_capture.md R104). -/
theorem execAll_all_samples_of_complete {s : State} (hi : s.initialised = true) (hr : s.running = true)
    (hc : s.capState = .complete) (hw : s.wpos = 0) (vs : Buffer) :
    execAll (vs.toList.map .edge) s = .next { s with active := vs, sealedLen := 0, response := ⟨.ok, 0⟩ } := by
  have hafter := afterSamples_of_complete vs 13 hc
  have hlast := exec_edge_of_complete_last (s := afterSamples vs 13 s) hi hr (by rw [hafter]; exact hc) rfl vs[13]
  rw [execAll_all_samples ⟨hi, hr, .inr ⟨hc, hw⟩⟩ vs, hlast, hafter]
  simp only [set_overwritten_last, hw]

/-- Settles O30: after `k` samples `active` is overwritten up to `k`; the fourteenth sample or the stop condition seals it. -/
theorem framesSealByCountOrByLongPulse : Obligations.FramesSealByCountOrByLongPulse := by
  refine fun vs s hi hr hc => ⟨execAll_all_samples_of_idle hi hr hc vs, fun k hk => ?_⟩
  have hrun : execAll ((vs.toList.take k).map .edge ++ [.longp]) s = .next
      { s with
        active := overwritten vs s.active k.val, wpos := 0, sealedLen := k.castSucc, capState := .complete
        response := ⟨.ok, 0⟩ } := by
    rw [execAll_samples_then ⟨hi, hr, .inl hc⟩ vs hk, afterSamples_of_idle vs k hc]
    exact exec_longp_of_capturing hi hr rfl
  refine ⟨_, hrun, rfl, rfl, rfl, fun j hj => ?_, fun j hj => ?_, hr, rfl, ⟨rfl, rfl, rfl, rfl, rfl, rfl⟩, ⟨rfl, rfl, rfl⟩,
    ⟨rfl, rfl, rfl⟩, ⟨rfl, rfl, rfl, rfl, rfl, rfl⟩⟩
  · exact (getElem_overwritten vs s.active k.val j.isLt).trans (if_pos hj)
  · exact (getElem_overwritten vs s.active k.val j.isLt).trans (if_neg (Fin.not_lt.mpr hj))

/-! ### The hand-off and the decode of what a transmission left -/

theorem exec_handoff_of_complete {s : State} (hi : s.initialised = true) (hc : s.capState = .complete) :
    exec .handoff s = .next (respond .ok 0 (handOver s)) :=
  exec_handoff_eq_next_iff.mpr ⟨hi, by rw [if_pos hc]⟩

/-- `HANDOFF` does not read the last answer. -/
theorem exec_handoff_of_response (s : State) (r : Response) : exec .handoff { s with response := r } = exec .handoff s := rfl

/-- Settles O31: the hand-off copies `active` in full, of which the first `k` elements have been overwritten. -/
theorem lateHandoffCopiesATornFrame : Obligations.LateHandoffCopiesATornFrame := by
  intro vs k s hi hr hc hw
  have hrun : execAll ((vs.toList.take k).map .edge ++ [.handoff]) s = exec .handoff (afterSamples vs k s) := by
    by_cases hk : k = 0
    · subst hk
      rw [afterSamples_zero_of_complete vs hc hw, exec_handoff_of_response]
      exact execAll_singleton .handoff s
    · exact execAll_samples_then ⟨hi, hr, .inr ⟨hc, hw⟩⟩ vs hk _
  rw [afterSamples_of_complete vs k hc] at hrun
  refine ⟨_, hrun.trans (exec_handoff_of_complete hi hc), fun j => ?_, rfl, rfl, rfl, rfl, rfl, rfl, ⟨rfl, rfl, rfl, rfl, rfl, rfl⟩,
    ⟨rfl, rfl, rfl⟩, ⟨rfl, rfl, rfl, rfl, rfl, rfl⟩, hr⟩
  exact getElem_overwritten vs s.active k.val j.isLt

/-- A snapshot that is not full is one parity failure (42_decode.md R131). -/
theorem exec_decode_of_short {s : State} (hi : s.initialised = true) (hp : s.pending = true) (hf : s.fsm = .running)
    (hn : s.snapLen ≠ 14) : exec .decode s = .next (respond .ok 0 (decodeFails .wrongParity { s with pending := false })) := by
  refine exec_decode_eq_next_iff.mpr ⟨hi, ?_⟩
  rw [if_pos hp, consumeRequest_of_running hf, snapshotVerdict_of_short hn]
  rfl

theorem execAll_handoff_decode_of_short {s : State} (hi : s.initialised = true) (hc : s.capState = .complete)
    (hf : s.fsm = .running) (hn : s.sealedLen ≠ 14) :
    execAll [.handoff, .decode] s =
      .next (respond .ok 0 (decodeFails .wrongParity { respond .ok 0 (handOver s) with pending := false })) := by
  rw [execAll_cons_of_next (exec_handoff_of_complete hi hc), execAll_singleton]
  exact exec_decode_of_short hi rfl hf hn

/-- Settles O32: either overrun leaves the length 0, whose hand-off is a snapshot that is not full. -/
theorem overrunCountsAsOneParityFailure : Obligations.OverrunCountsAsOneParityFailure := by
  intro vs s hi hr hc hw
  have hover := execAll_all_samples_of_complete hi hr hc hw vs
  refine ⟨hover, fun k hk => ?_, fun hf => ?_⟩
  · have hrun : execAll ((vs.toList.take k).map .edge ++ [.longp]) s = .next
        { s with active := overwritten vs s.active k.val, wpos := 0, sealedLen := 0, response := ⟨.ok, 0⟩ } := by
      rw [execAll_samples_then ⟨hi, hr, .inr ⟨hc, hw⟩⟩ vs hk, afterSamples_of_complete vs k hc]
      exact exec_longp_of_complete hi hr hc hk
    exact ⟨_, hrun, rfl, rfl, hc, ⟨rfl, rfl, rfl, rfl, rfl, rfl⟩, ⟨rfl, rfl, rfl⟩⟩
  · rw [execAll_append_of_next hover]
    refine (execAll_handoff_decode_of_short (s := { s with active := vs, sealedLen := 0, response := ⟨.ok, 0⟩ })
      hi hc hf (show (0 : Fin 15) ≠ 14 by decide)).trans ?_
    rw [decodeFails_eq, hw]
    simp only [respond_fsm, handOver_fsm, hf]
    rfl

end Sys2Proof.Machine

/-! ## 41_handoff.md: both cases of `HANDOFF`, and what a replaced snapshot leaves -/

namespace Sys2Proof.Machine

theorem exec_handoff_of_not_complete {s : State} (hi : s.initialised = true) (hc : s.capState ≠ .complete) :
    exec .handoff s = .next (respond .notEnabled 0 s) :=
  exec_handoff_eq_next_iff.mpr ⟨hi, by rw [if_neg hc]⟩

/-- The hand-off overwrites the whole slot without reading it (41_handoff.md R122). -/
theorem handOver_of_slot (s : State) (b : Buffer) (n : Fin 15) (p : Bool) :
    handOver { s with snapshot := b, snapLen := n, pending := p } = handOver s := rfl

theorem respond_handOver_sameDecodeView (st : Status) (d : BitVec 32) (s : State) :
    SameDecodeView s (respond st d (handOver s)) := ⟨rfl, rfl, rfl, rfl, rfl, rfl⟩

/-- Settles O33: the word by evaluation, and one equation a case of the guard. -/
theorem handoffServesTheFrame : Obligations.HandoffServesTheFrame :=
  ⟨by decide, fun _ hi => ⟨exec_handoff_of_not_complete hi, exec_handoff_of_complete hi⟩⟩

/-- Settles O34: both runs are the hand-off, which does not read the slot and writes nothing of the decode view. -/
theorem replacedSnapshotLeavesNoTrace : Obligations.ReplacedSnapshotLeavesNoTrace := by
  intro s b n p hi hc
  have hslot : exec .handoff { s with snapshot := b, snapLen := n, pending := p } = .next (respond .ok 0 (handOver s)) := by
    rw [← handOver_of_slot s b n p]
    exact exec_handoff_of_complete hi hc
  exact ⟨_, exec_handoff_of_complete hi hc, hslot, handOver_pending s, respond_handOver_sameDecodeView .ok 0 s⟩

end Sys2Proof.Machine

/-! ## 42_decode.md: the bits of a frame as numbers, and its verdict -/

namespace Sys2Proof.Machine

/-! ### The groups of a frame and their ones (42_decode.md R132, R134, R135) -/

/-- `b[i]` as the number 0 or 1 (42_decode.md R132). -/
def bitValue (a : Buffer) (i : Fin 14) : Nat := if a[i].toNat < a[0].toNat then 1 else 0

/-- The positions of the low group: its data bits and `PL` (42_decode.md R134). -/
def lowGroup : List (Fin 14) := [1, 2, 3, 4, 5, 6, 7, 8, 9]

/-- The positions of the high group: its data bits and `PH` (42_decode.md R135). -/
def highGroup : List (Fin 14) := [10, 11, 12, 13]

/-- How many of the bits at the positions `ps` are ones. -/
def ones (a : Buffer) (ps : List (Fin 14)) : Nat := (ps.map (bitValue a)).sum

/-- `256 * high + low` (42_decode.md R137). -/
def codeValue (a : Buffer) : Nat :=
  256 * (4 * bitValue a 10 + 2 * bitValue a 11 + bitValue a 12) +
    (128 * bitValue a 1 + 64 * bitValue a 2 + 32 * bitValue a 3 + 16 * bitValue a 4 + 8 * bitValue a 5 + 4 * bitValue a 6 +
      2 * bitValue a 7 + bitValue a 8)

theorem toNat_sampleBit (a : Buffer) (i : Fin 14) : (sampleBit a i).toNat = bitValue a i := by
  simp only [sampleBit, bitValue, BitVec.lt_def, Bool.toNat, Bool.cond_decide]

theorem bitValue_eq_zero_iff {a : Buffer} {i : Fin 14} : bitValue a i = 0 ↔ a[0] ≤ a[i] := by
  simp [bitValue, BitVec.le_def]

theorem bitValue_eq_one_iff {a : Buffer} {i : Fin 14} : bitValue a i = 1 ↔ a[i] < a[0] := by
  simp [bitValue, BitVec.lt_def]

theorem ones_lowGroup (a : Buffer) :
    ones a lowGroup =
      bitValue a 1 + bitValue a 2 + bitValue a 3 + bitValue a 4 + bitValue a 5 + bitValue a 6 + bitValue a 7 + bitValue a 8 +
        bitValue a 9 := by
  simp [ones, lowGroup, Nat.add_assoc]

theorem ones_highGroup (a : Buffer) :
    ones a highGroup = bitValue a 10 + bitValue a 11 + bitValue a 12 + bitValue a 13 := by
  simp [ones, highGroup, Nat.add_assoc]

/-! ### Parity and code in the spec's arithmetic (42_decode.md R134 to R138) -/

theorem toNat_xor_eq (x y : Bool) : (x ^^ y).toNat = (x.toNat + y.toNat) % 2 := by
  cases x <;> cases y <;> rfl

theorem beq_iff_even_toNat (x y : Bool) : (x == y) = true ↔ (x.toNat + y.toNat) % 2 = 0 := by
  cases x <;> cases y <;> decide

/-- The low parity holds exactly when the group has an even number of ones. -/
theorem lowParityOk_frameBits_iff (a : Buffer) : lowParityOk (frameBits a) = true ↔ ones a lowGroup % 2 = 0 := by
  simp only [lowParityOk, frameBits, beq_iff_even_toNat, toNat_xor_eq, toNat_sampleBit, ones_lowGroup, Nat.mod_add_mod]

/-- The high parity holds exactly when the group has an even number of ones. -/
theorem highParityOk_frameBits_iff (a : Buffer) : highParityOk (frameBits a) = true ↔ ones a highGroup % 2 = 0 := by
  simp only [highParityOk, frameBits, beq_iff_even_toNat, toNat_xor_eq, toNat_sampleBit, ones_highGroup, Nat.mod_add_mod]

theorem toNat_codeOf_frameBits (a : Buffer) : (codeOf (frameBits a)).toNat = codeValue a := by
  simp only [codeOf, frameBits, codeValue, BitVec.ofBoolListBE, List.length, BitVec.toNat_cons', BitVec.toNat_ofNat,
    toNat_sampleBit, Nat.shiftLeft_eq]
  omega

theorem codeOf_frameBits (a : Buffer) : codeOf (frameBits a) = BitVec.ofNat 11 (codeValue a) := by
  rw [← toNat_codeOf_frameBits, BitVec.ofNat_toNat, BitVec.setWidth_eq]

theorem codeOf_frameBits_eq_iff (a : Buffer) (c : RawCode) : codeOf (frameBits a) = c ↔ codeValue a = c.toNat := by
  rw [← BitVec.toNat_inj, toNat_codeOf_frameBits]

/-- The two sentinels by the value of the code (42_decode.md R138). -/
theorem rangeVerdict_codeOf_frameBits (a : Buffer) :
    rangeVerdict (codeOf (frameBits a)) =
      if codeValue a = 0 then .failure .lowRange
      else if codeValue a = 2047 then .failure .highRange
      else .success (BitVec.ofNat 11 (codeValue a)) := by
  simp only [rangeVerdict, codeOf_frameBits_eq_iff]
  rw [codeOf_frameBits]
  rfl

/-- The verdict on a snapshot in the spec's order of checks, parity as the evenness of the number of ones. -/
theorem snapshotVerdict_eq (n : Fin 15) (a : Buffer) :
    snapshotVerdict n a =
      if n.val < 14 then .failure .wrongParity
      else if ones a lowGroup % 2 = 1 ∨ ones a highGroup % 2 = 1 then .failure .wrongParity
      else if codeValue a = 0 then .failure .lowRange
      else if codeValue a = 2047 then .failure .highRange
      else .success (BitVec.ofNat 11 (codeValue a)) := by
  have hparity : (lowParityOk (frameBits a) && highParityOk (frameBits a)) = true ↔
      ¬ (ones a lowGroup % 2 = 1 ∨ ones a highGroup % 2 = 1) := by
    rw [Bool.and_eq_true, lowParityOk_frameBits_iff, highParityOk_frameBits_iff]
    omega
  simp only [snapshotVerdict, bitsVerdict, hparity, ite_not, rangeVerdict_codeOf_frameBits]

/-- A group with an odd number of ones fails the frame, whatever its length and its code (42_decode.md R136). -/
theorem snapshotVerdict_of_odd {a : Buffer} (h : ones a lowGroup % 2 = 1 ∨ ones a highGroup % 2 = 1) (n : Fin 15) :
    snapshotVerdict n a = .failure .wrongParity := by
  rw [snapshotVerdict_eq, if_pos h, ite_self]

/-! ### Degenerate thresholds (42_decode.md R139) -/

/-- A full frame of zeros only passes both parities with the code 0. -/
theorem snapshotVerdict_of_no_ones {a : Buffer} (h : ∀ i : Fin 14, a[0] ≤ a[i]) : snapshotVerdict 14 a = .failure .lowRange := by
  have hzero : ∀ i, bitValue a i = 0 := fun i => bitValue_eq_zero_iff.mpr (h i)
  simp [snapshotVerdict_eq, ones_lowGroup, ones_highGroup, codeValue, hzero]

/-- Settles O40: with no sample below the strobe there are no ones, and with all below it the low group has nine. -/
theorem degenerateThresholds : Obligations.DegenerateThresholds := by
  intro a
  refine ⟨fun h0 => ?_, fun heq => ?_, fun hlt => ?_⟩
  · exact snapshotVerdict_of_no_ones fun i => by rw [h0]; exact Nat.zero_le _
  · exact snapshotVerdict_of_no_ones fun i => BitVec.le_of_eq (heq i).symm
  · have hone : ∀ i ≠ 0, bitValue a i = 1 := fun i hi => bitValue_eq_one_iff.mpr (hlt i hi)
    exact snapshotVerdict_of_odd (.inl (by simp [ones_lowGroup, hone])) 14

/-! ### One flipped bit (42_decode.md R142) -/

/-- The two groups are all positions but the strobe's (30_encoding.md R88). -/
theorem ne_zero_iff_mem_group : ∀ p : Fin 14, p ≠ 0 ↔ p ∈ lowGroup ∨ p ∈ highGroup := by decide

theorem bitValue_congr {a b : Buffer} {i : Fin 14} (h : sampleBit a i = sampleBit b i) : bitValue a i = bitValue b i := by
  rw [← toNat_sampleBit, h, toNat_sampleBit]

theorem bitValue_add_bitValue_of_flip {a b : Buffer} {p : Fin 14} (h : sampleBit a p ≠ sampleBit b p) :
    bitValue a p + bitValue b p = 1 := by
  rw [← toNat_sampleBit, ← toNat_sampleBit, Bool.eq_not.mpr h]
  cases sampleBit b p <;> rfl

/-- One flipped bit of a group turns an even number of ones odd. -/
theorem ones_odd_of_flip {a b : Buffer} {p : Fin 14} {ps : List (Fin 14)} (hnodup : ps.Nodup) (hp : p ∈ ps)
    (hflip : sampleBit a p ≠ sampleBit b p) (hrest : ∀ i ∈ ps, i ≠ p → sampleBit a i = sampleBit b i)
    (heven : ones a ps % 2 = 0) : ones b ps % 2 = 1 := by
  have hsame : (ps.erase p).map (bitValue a) = (ps.erase p).map (bitValue b) := List.map_congr_left fun i hi => by
    obtain ⟨hne, hmem⟩ := hnodup.mem_erase_iff.mp hi
    exact bitValue_congr (hrest i hmem hne)
  have ha : bitValue a p + ((ps.erase p).map (bitValue a)).sum = ones a ps := List.sum_map_erase _ hp
  have hb : bitValue b p + ((ps.erase p).map (bitValue b)).sum = ones b ps := List.sum_map_erase _ hp
  have hbit := bitValue_add_bitValue_of_flip hflip
  rw [hsame] at ha
  omega

/-- Settles O38: the flipped position is in one of the two groups, whose number of ones becomes odd. -/
theorem singleBitFlipIsRejected : Obligations.SingleBitFlipIsRejected := by
  intro a b p hp hflip hrest hlow hhigh
  rw [lowParityOk_frameBits_iff] at hlow
  rw [highParityOk_frameBits_iff] at hhigh
  rcases (ne_zero_iff_mem_group p).mp hp with hmem | hmem
  · have hgroup := ones_odd_of_flip (by decide) hmem hflip (fun i hi => hrest i ((ne_zero_iff_mem_group i).mpr (.inl hi))) hlow
    exact snapshotVerdict_of_odd (.inl hgroup) 14
  · have hgroup := ones_odd_of_flip (by decide) hmem hflip (fun i hi => hrest i ((ne_zero_iff_mem_group i).mpr (.inr hi))) hhigh
    exact snapshotVerdict_of_odd (.inr hgroup) 14

/-! ### The frame of a code (30_encoding.md R89) -/

theorem sampleOf_lt_iff {theta lo hi : Interval} (hlo : lo < theta) (hhi : theta ≤ hi) (x : Bool) :
    sampleOf lo hi x < theta ↔ x = true := by
  cases x with
  | true => exact iff_of_true hlo rfl
  | false => exact iff_of_false (BitVec.not_lt.mpr hhi) Bool.false_ne_true

/-- The decoder reads back the bits a frame was built from. -/
theorem frameBits_samplesOfBits {theta lo hi : Interval} (hlo : lo < theta) (hhi : theta ≤ hi) (b : BitSeq) :
    frameBits (samplesOfBits theta lo hi b) = b := by
  simp [frameBits, sampleBit, samplesOfBits, sampleOf_lt_iff hlo hhi]

theorem lowParityOk_bitsOfCode (c : RawCode) : lowParityOk (bitsOfCode c) = true := beq_self_eq_true _

theorem highParityOk_bitsOfCode (c : RawCode) : highParityOk (bitsOfCode c) = true := beq_self_eq_true _

theorem codeOf_bitsOfCode (c : RawCode) : codeOf (bitsOfCode c) = c := by
  apply BitVec.eq_of_getLsbD_eq
  intro i hi
  interval_cases i <;> simp [codeOf, bitsOfCode, BitVec.ofBoolListBE, BitVec.getElem_cons]

theorem bitsVerdict_bitsOfCode (c : RawCode) : bitsVerdict (bitsOfCode c) = rangeVerdict c := by
  rw [bitsVerdict, lowParityOk_bitsOfCode, highParityOk_bitsOfCode, codeOf_bitsOfCode]
  rfl

theorem snapshotVerdict_full (a : Buffer) : snapshotVerdict 14 a = bitsVerdict (frameBits a) := if_neg (by decide)

/-- Settles O37: the bits are read back, their parities hold by construction, and the code they spell is `c`. -/
theorem frameOfACodeDecodesToIt : Obligations.FrameOfACodeDecodesToIt := by
  intro theta lo hi c hlo hhi
  rw [snapshotVerdict_full, frameBits_samplesOfBits hlo hhi, bitsVerdict_bitsOfCode]
  rfl

end Sys2Proof.Machine

/-! ## 42_decode.md: `DECODE` as whole next states -/

namespace Sys2Proof.Machine

/-! ### One equation a case (42_decode.md R130, R140) -/

theorem exec_decode_of_not_pending {s : State} (hi : s.initialised = true) (hp : s.pending = false) :
    exec .decode s = .next { s with response := ⟨.notEnabled, 0⟩ } :=
  exec_decode_eq_next_iff.mpr ⟨hi, by rw [if_neg (Bool.eq_false_iff.mp hp)]; rfl⟩

theorem exec_decode_of_faulted {s : State} (hi : s.initialised = true) (hp : s.pending = true) {k : FaultKind}
    (hf : s.fsm = .faulted k) : exec .decode s = .next { s with pending := false, response := ⟨.ok, 0⟩ } :=
  exec_decode_eq_next_iff.mpr ⟨hi, by rw [if_pos hp, consumeRequest_of_faulted hf]; rfl⟩

section
variable {s : State} (hi : s.initialised = true) (hp : s.pending = true) (hf : s.fsm = .running)
include hi hp hf

theorem exec_decode_of_running :
    exec .decode s = .next (respond .ok 0 (applyVerdict (snapshotVerdict s.snapLen s.snapshot) { s with pending := false })) :=
  exec_decode_eq_next_iff.mpr ⟨hi, by rw [if_pos hp, consumeRequest_of_running hf]⟩

/-- `success(code)` (44_fault.md R171). -/
theorem exec_decode_of_success {c : RawCode} (hv : snapshotVerdict s.snapLen s.snapshot = .success c) :
    exec .decode s = .next
      { s with
        pending := false, response := ⟨.ok, 0⟩
        window := s.window.set s.head.toNat c
        head := BitVec.ofNat 8 ((s.head.toNat + 1) % s.cfgF.toNat)
        consecutive := 0, seenValid := true } := by
  rw [exec_decode_of_running hi hp hf, hv]
  rfl

/-- `fail(kind)` (44_fault.md R172). -/
theorem exec_decode_of_failure {k : FaultKind} (hv : snapshotVerdict s.snapLen s.snapshot = .failure k) :
    exec .decode s = .next
      { s with
        pending := false, response := ⟨.ok, 0⟩
        errorcount := if s.errorcount = 0xFFFFFFFF then s.errorcount else s.errorcount + 1
        consecutive := s.consecutive + 1
        fsm := if s.cfgLIMIT ≤ s.consecutive + 1 then .faulted k else .running } := by
  rw [exec_decode_of_running hi hp hf, hv, applyVerdict, decodeFails_eq, ← hf]
  rfl

end

/-- Settles O35: the word by evaluation, and one equation a case of the verdict in the spec's arithmetic. -/
theorem decodeFollowsTheRule : Obligations.DecodeFollowsTheRule := by
  refine ⟨by decide, fun s hi => ⟨exec_decode_of_not_pending hi, fun hp k => exec_decode_of_faulted hi hp, fun hp hf => ?_⟩⟩
  intro b low high code consumed failed
  have hverdict := snapshotVerdict_eq s.snapLen s.snapshot
  rw [ones_lowGroup, ones_highGroup] at hverdict
  have hfailure : ∀ {k}, snapshotVerdict s.snapLen s.snapshot = .failure k → exec .decode s = .next (failed k) :=
    exec_decode_of_failure hi hp hf
  split_ifs with hshort hodd hzero htop
  · exact hfailure (hverdict.trans (if_pos hshort))
  · exact hfailure (hverdict.trans ((if_neg hshort).trans (if_pos hodd)))
  · exact hfailure (hverdict.trans ((if_neg hshort).trans ((if_neg hodd).trans (if_pos hzero))))
  · exact hfailure (hverdict.trans ((if_neg hshort).trans ((if_neg hodd).trans ((if_neg hzero).trans (if_pos htop)))))
  · exact exec_decode_of_success hi hp hf
      (hverdict.trans ((if_neg hshort).trans ((if_neg hodd).trans ((if_neg hzero).trans (if_neg htop)))))

/-! ### `DECODE` and `running` (42_decode.md R141) -/

/-- `s` with another value of `running`. -/
def State.withRunning (r : Bool) (s : State) : State := { s with running := r }

theorem applyVerdict_withRunning (r : Bool) (v : Verdict) (s : State) :
    applyVerdict v (s.withRunning r) = (applyVerdict v s).withRunning r := by
  cases v with
  | success c => rfl
  | failure k => simp only [applyVerdict, decodeFails_eq]; rfl

theorem consumeRequest_withRunning (r : Bool) (s : State) :
    consumeRequest (s.withRunning r) = (consumeRequest s).withRunning r := by
  cases hf : s.fsm with
  | faulted k => rw [consumeRequest_of_faulted hf, consumeRequest_of_faulted (s := s.withRunning r) hf]; rfl
  | running =>
    rw [consumeRequest_of_running hf, consumeRequest_of_running (s := s.withRunning r) hf]
    exact applyVerdict_withRunning r _ { s with pending := false }

theorem exec_decode_withRunning {s t : State} (h : exec .decode s = .next t) (r : Bool) :
    exec .decode (s.withRunning r) = .next (t.withRunning r) := by
  obtain ⟨hi, rfl⟩ := exec_decode_eq_next_iff.mp h
  refine exec_decode_eq_next_iff.mpr ⟨hi, ?_⟩
  rw [consumeRequest_withRunning]
  exact apply_ite (State.withRunning r) _ _ _

/-- `STOP` drops the frame and keeps the request (45_host.md R194). -/
theorem exec_stop_of_running {s : State} (hi : s.initialised = true) (hr : s.running = true) :
    exec .stop s = .next (respond .ok 0 (detectorIdle { s with running := false })) :=
  exec_stop_eq_next_iff.mpr ⟨hi, by rw [if_pos hr]⟩

/-- Settles O36: `running` passes through every case, and after a `STOP` the request meets the same verdict. -/
theorem decodeDoesNotReadRunning : Obligations.DecodeDoesNotReadRunning := by
  refine ⟨fun _ _ r h => exec_decode_withRunning h r, fun s hi hr hp hf => ?_⟩
  rw [execAll_cons_of_next (exec_stop_of_running hi hr), execAll_singleton]
  exact ⟨fun c => exec_decode_of_success (s := respond .ok 0 (detectorIdle { s with running := false })) hi hp hf,
    fun k => exec_decode_of_failure (s := respond .ok 0 (detectorIdle { s with running := false })) hi hp hf⟩

end Sys2Proof.Machine

/-! ## 43_filter.md: the window oldest first, its median, and the temperature -/

namespace Sys2Proof.Machine

/-! ### The window as the list of its codes, oldest first (43_filter.md R161) -/

/-- The window's slots in the order they will be written again: from `head` on, around the ring. -/
def State.ring (s : State) : List RawCode := s.window.rotate s.head.toNat

/-- `push` of each code in turn. -/
def pushAll (cs : List RawCode) (s : State) : State := cs.foldl (fun u c => pushCode c u) s

/-- Pushes write the window and the head only. -/
theorem pushAll_frame (cs : List RawCode) (s : State) :
    pushAll cs s = { s with window := (pushAll cs s).window, head := (pushAll cs s).head } := by
  induction cs generalizing s with
  | nil => rfl
  | cons c cs ih => exact ih (pushCode c s)

@[simp] theorem pushAll_cfgF (cs : List RawCode) (s : State) : (pushAll cs s).cfgF = s.cfgF := by
  rw [pushAll_frame]

/-- The invariant's clauses on the shape of the window. -/
structure State.WindowShape (s : State) : Prop where
  nonempty : s.cfgF ≠ 0
  length : s.window.length = s.cfgF.toNat
  head : s.head < s.cfgF

theorem State.Inv.windowShape {s : State} (h : s.Inv) : s.WindowShape := ⟨h.windowNonempty, h.windowLength, h.headInWindow⟩

theorem windowShape_of_cleared {s : State} (hF : s.cfgF ≠ 0) (hw : s.window = List.replicate s.cfgF.toNat 0) (hh : s.head = 0) :
    s.WindowShape :=
  ⟨hF, by rw [hw, List.length_replicate], hh ▸ BitVec.toNat_pos_of_ne_zero hF⟩

theorem ring_of_cleared {s : State} (hw : s.window = List.replicate s.cfgF.toNat 0) : s.ring = List.replicate s.cfgF.toNat 0 := by
  rw [State.ring, hw, List.rotate_replicate]

theorem ring_perm_window (s : State) : s.ring.Perm s.window := List.rotate_perm _ _

namespace State.WindowShape

variable {s : State} (h : s.WindowShape)
include h

theorem head_lt_length : s.head.toNat < s.window.length := by
  rw [h.length]
  exact h.head

theorem ring_length : s.ring.length = s.cfgF.toNat := by
  rw [State.ring, List.length_rotate, h.length]

theorem getElem?_head : s.window[s.head.toNat]? = s.ring.head? := (List.head?_rotate h.head_lt_length).symm

theorem pushCode (c : RawCode) : (pushCode c s).WindowShape :=
  ⟨h.nonempty, (pushCode_window_length c s).trans h.length, pushCode_head_lt c s h.nonempty⟩

theorem pushAll (cs : List RawCode) : (pushAll cs s).WindowShape := by
  induction cs generalizing s with
  | nil => exact h
  | cons c cs ih => exact ih (h.pushCode c)

end State.WindowShape

/-- Writing at the seam of a ring and moving the seam on drops the oldest element and appends the new one. -/
theorem rotate_set_succ {α : Type} {l : List α} {n : Nat} (h : n < l.length) (a : α) :
    (l.set n a).rotate (n + 1) = (l.rotate n).tail ++ [a] := by
  have hset : l.set n a = (l.take n ++ [a]) ++ l.drop (n + 1) := by
    rw [List.set_eq_take_append_cons_drop, if_pos h, List.append_assoc, List.singleton_append]
  have hlen : (l.take n ++ [a]).length = n + 1 := by simp [h.le]
  have hrotate := List.rotate_append_length_eq (l.take n ++ [a]) (l.drop (n + 1))
  rw [hlen, ← hset] at hrotate
  rw [hrotate, List.rotate_eq_drop_append_take h.le, List.drop_eq_getElem_cons h, List.cons_append, List.tail_cons, List.append_assoc]

theorem ring_pushCode {s : State} (h : s.WindowShape) (c : RawCode) : (pushCode c s).ring = s.ring.tail ++ [c] := by
  rw [State.ring, pushCode_head_toNat c s h.nonempty, ← h.length, ← pushCode_window_length c s, List.rotate_mod, pushCode_window,
    rotate_set_succ h.head_lt_length]
  rfl

/-- Each push drops the oldest code of the ring and appends its own. -/
theorem ring_pushAll {s : State} (h : s.WindowShape) (cs : List RawCode) : (pushAll cs s).ring = (s.ring ++ cs).drop cs.length := by
  induction cs generalizing s with
  | nil => simp [pushAll]
  | cons c cs ih =>
    have hne : s.ring ≠ [] := List.ne_nil_of_length_pos (by
      rw [h.ring_length]
      exact BitVec.toNat_pos_of_ne_zero h.nonempty)
    calc (pushAll cs (pushCode c s)).ring
      _ = (s.ring.tail ++ [c] ++ cs).drop cs.length := by rw [ih (h.pushCode c), ring_pushCode h]
      _ = (s.ring ++ c :: cs).drop (c :: cs).length := by
        rw [List.append_assoc, List.singleton_append, ← List.tail_append_of_ne_nil hne, List.drop_tail, List.length_cons]

theorem ring_pushAll_full {s : State} (h : s.WindowShape) {cs : List RawCode} (hcs : s.cfgF.toNat ≤ cs.length) :
    (pushAll cs s).ring = cs.drop (cs.length - s.cfgF.toNat) := by
  rw [ring_pushAll h, List.drop_append, h.ring_length, List.drop_eq_nil_of_le (by rwa [h.ring_length]), List.nil_append]

theorem ring_pushAll_cleared {s : State} (h : s.WindowShape) (hw : s.window = List.replicate s.cfgF.toNat 0) {cs : List RawCode}
    (hcs : cs.length ≤ s.cfgF.toNat) : (pushAll cs s).ring = List.replicate (s.cfgF.toNat - cs.length) 0 ++ cs := by
  rw [ring_pushAll h, ring_of_cleared hw, List.drop_append_of_le_length (by rwa [List.length_replicate]), List.drop_replicate]

/-- Settles O41: the ring after the pushes is the last codes, with neutral slots before them while it is not full. -/
theorem windowHoldsTheLastCodes : Obligations.WindowHoldsTheLastCodes := by
  refine ⟨fun s hF hlen hhead => ⟨fun c => rfl, fun cs hcs => ?_⟩, fun s cs hF hw hh hcs => ?_⟩
  · have h : s.WindowShape := ⟨hF, hlen, hhead⟩
    have hring := ring_pushAll_full h hcs
    exact ⟨(ring_perm_window (pushAll cs s)).symm.trans (.of_eq hring),
      (h.pushAll cs).getElem?_head.trans (by rw [hring, List.head?_drop])⟩
  · have h := windowShape_of_cleared hF hw hh
    refine (h.pushAll cs).getElem?_head.trans ?_
    simp [ring_pushAll_cleared h hw hcs.le, List.head?_append, List.head?_replicate, Nat.sub_ne_zero_of_lt hcs]

/-! ### The median (43_filter.md R162, R163) -/

theorem cfgF_half_lt {s : State} (hF : s.cfgF ≠ 0) : s.cfgF.toNat / 2 < s.cfgF.toNat :=
  Nat.div_lt_self (BitVec.toNat_pos_of_ne_zero hF) Nat.one_lt_two

/-- The median is read off any ascending list of the ring's codes. -/
theorem getElem?_half_eq_medianCode {s : State} (h : s.WindowShape) {sorted : List RawCode} (hp : sorted.Perm s.ring)
    (hs : sorted.Pairwise (· ≤ ·)) : sorted[s.cfgF.toNat / 2]? = some (medianCode s) := by
  have hlt : s.cfgF.toNat / 2 < sorted.length := by
    rw [hp.length_eq, h.ring_length]
    exact cfgF_half_lt h.nonempty
  rw [medianCode, medianOf_eq_of_sorted _ (hp.trans (ring_perm_window s)) hs, List.getElem?_eq_getElem hlt,
    List.getD_eq_getElem _ _ hlt]

/-- Settles O42: the window and its ring have the same values. -/
theorem medianIsTheMiddleElement : Obligations.MedianIsTheMiddleElement :=
  fun s h _ hp hs => getElem?_half_eq_medianCode h.windowShape (hp.trans (ring_perm_window s).symm) hs

/-- Once the window is full the median is that of the last codes. -/
theorem medianCode_pushAll_full {s : State} (h : s.WindowShape) {cs sorted : List RawCode} {m : RawCode}
    (hcs : s.cfgF.toNat ≤ cs.length) (hp : sorted.Perm (cs.drop (cs.length - s.cfgF.toNat))) (hs : sorted.Pairwise (· ≤ ·))
    (hm : sorted[s.cfgF.toNat / 2]? = some m) : medianCode (pushAll cs s) = m := by
  rw [← ring_pushAll_full h hcs] at hp
  have hmiddle := getElem?_half_eq_medianCode (h.pushAll cs) hp hs
  rw [pushAll_cfgF] at hmiddle
  exact Option.some.inj (hmiddle.symm.trans hm)

theorem pairwise_le_neutral_append {sorted : List RawCode} (hs : sorted.Pairwise (· ≤ ·)) (n : Nat) :
    (List.replicate n 0 ++ sorted).Pairwise (· ≤ ·) := by
  refine List.pairwise_append.mpr ⟨List.pairwise_replicate.mpr (.inr (BitVec.le_refl 0)), hs, fun a ha b _ => ?_⟩
  rw [List.eq_of_mem_replicate ha]
  exact Nat.zero_le b.toNat

/-- Before the window is full its ascending order is the neutral slots, then the pushed codes. -/
theorem getElem?_half_eq_medianCode_pushAll_cleared {s : State} (h : s.WindowShape) (hw : s.window = List.replicate s.cfgF.toNat 0)
    {cs sorted : List RawCode} (hcs : cs.length ≤ s.cfgF.toNat) (hp : sorted.Perm cs) (hs : sorted.Pairwise (· ≤ ·)) :
    (List.replicate (s.cfgF.toNat - cs.length) 0 ++ sorted)[s.cfgF.toNat / 2]? = some (medianCode (pushAll cs s)) := by
  have hperm : (List.replicate (s.cfgF.toNat - cs.length) 0 ++ sorted).Perm (pushAll cs s).ring := by
    rw [ring_pushAll_cleared h hw hcs]
    exact hp.append_left _
  simpa using getElem?_half_eq_medianCode (h.pushAll cs) hperm (pairwise_le_neutral_append hs _)

/-- Settles O43: up to `p = F - 1 - F // 2` the middle index is one of the neutral slots', then one of the codes'. -/
theorem medianBeforeTheWindowIsFull : Obligations.MedianBeforeTheWindowIsFull := by
  intro s cs hF hw hh hcs t q
  have h := windowShape_of_cleared hF hw hh
  have hhalf := cfgF_half_lt hF
  refine ⟨fun hfew => ?_, fun hmany sorted hp hs => ?_⟩
  · have hmedian := getElem?_half_eq_medianCode_pushAll_cleared h hw hcs.le (List.perm_insertionSort (· ≤ ·) cs)
      (List.pairwise_insertionSort _ cs)
    rw [List.getElem?_append_left (by rw [List.length_replicate]; omega), List.getElem?_replicate, if_pos (by omega)] at hmedian
    exact (Option.some.inj hmedian).symm
  · have hmedian := getElem?_half_eq_medianCode_pushAll_cleared h hw hcs.le hp hs
    rw [List.getElem?_append_right (by rw [List.length_replicate]; omega), List.length_replicate] at hmedian
    rwa [show cs.length - q - 1 = s.cfgF.toNat / 2 - (s.cfgF.toNat - cs.length) by omega]

/-! ### Successful decodes and the temperature (43_filter.md R165, R167) -/

/-- `s` as the last decode, a success, leaves the counters: what else a success writes is a push. -/
def State.afterSuccess (s : State) : State := { s with consecutive := 0, seenValid := true }

theorem afterSuccess_foldl_decodeSucceeds (cs : List RawCode) (s : State) :
    (cs.foldl (fun u c => decodeSucceeds c u) s).afterSuccess = pushAll cs s.afterSuccess :=
  (List.foldl_hom State.afterSuccess fun _ _ => rfl).symm

theorem exec_rdtemp_of_running {s : State} (hi : s.initialised = true) (hr : s.running = true) (hf : s.fsm = .running) :
    exec .rdtemp s = .next (respond .ok ((medianCode s).setWidth 32) s) :=
  exec_rdtemp_eq_next_iff.mpr ⟨hi, .inr (.inr ⟨hr, hf, rfl⟩)⟩

/-- Settles O44: successes push their codes, so the ring is the last ones, and nothing `RDTEMP`'s guards read is written. -/
theorem rdtempReadsTheMedianOfTheLastCodes : Obligations.RdtempReadsTheMedianOfTheLastCodes := by
  intro s cs h hr hf hcs t sorted m hp hs hm
  have hpushes : t.afterSuccess = pushAll cs s.afterSuccess := afterSuccess_foldl_decodeSucceeds cs s
  have hframe := hpushes.trans (pushAll_frame cs s.afterSuccess)
  have hshape : s.afterSuccess.WindowShape := ⟨h.windowNonempty, h.windowLength, h.headInWindow⟩
  have hmedian : m = medianCode t :=
    (medianCode_pushAll_full hshape hcs hp hs hm).symm.trans (congrArg medianCode hpushes).symm
  rw [hmedian]
  exact exec_rdtemp_of_running ((congrArg State.initialised hframe).trans h.initialised) ((congrArg State.running hframe).trans hr)
    ((congrArg State.fsm hframe).trans hf)

/-- Settles O45: rational arithmetic, and `RDTEMP`'s data is the median zero-extended. -/
theorem temperatureMap : Obligations.TemperatureMap := by
  refine ⟨fun c => ?_, ?_, ?_, ?_, fun c hc => ?_, fun s hi hr hf => ⟨_, exec_rdtemp_of_running hi hr hf, rfl, ?_⟩⟩
  · rw [temperature]
    ring
  · norm_num [temperature]
  · rw [temperature, show (2047 : RawCode).toNat = 2047 from rfl]
    norm_num
  · rw [temperature, show (1100 : RawCode).toNat = 1100 from rfl]
    norm_num
  · have hnext : (c + 1).toNat = c.toNat + 1 := by bv_omega
    rw [temperature, temperature, hnext]
    push_cast
    ring
  · rw [respond_response, temperature, BitVec.toNat_setWidth_of_le (by decide)]

end Sys2Proof.Machine

/-! ## 44_fault.md: the escalation to the hard fault, and what leaves it -/

namespace Sys2Proof.Machine

/-! ### A run of failures (44_fault.md R172, R173, R175) -/

theorem decodeFails_consecutive (k : FaultKind) (s : State) : (decodeFails k s).consecutive = s.consecutive + 1 := by
  rw [decodeFails_eq]

theorem decodeFails_errorcount (k : FaultKind) (s : State) : (decodeFails k s).errorcount = saturatingIncrement s.errorcount := by
  rw [decodeFails_eq]

theorem decodeFails_fsm (k : FaultKind) (s : State) :
    (decodeFails k s).fsm = if s.cfgLIMIT ≤ s.consecutive + 1 then .faulted k else s.fsm := by
  rw [decodeFails_eq]

/-- `fail` of each kind in turn. -/
def failAll (ks : List FaultKind) (s : State) : State := ks.foldl (fun u k => decodeFails k u) s

theorem failAll_append_singleton (ks : List FaultKind) (k : FaultKind) (s : State) :
    failAll (ks ++ [k]) s = decodeFails k (failAll ks s) :=
  List.foldl_concat _ _ _ _

/-- Failures write the two counters and `fsm` only. -/
theorem failAll_frame (ks : List FaultKind) (s : State) :
    failAll ks s =
      { s with
        errorcount := (failAll ks s).errorcount, consecutive := (failAll ks s).consecutive, fsm := (failAll ks s).fsm } := by
  induction ks using List.reverseRecOn with
  | nil => rfl
  | append_singleton ks k ih => rw [failAll_append_singleton, decodeFails_eq, ih]

@[simp] theorem failAll_cfgLIMIT (ks : List FaultKind) (s : State) : (failAll ks s).cfgLIMIT = s.cfgLIMIT := by
  rw [failAll_frame]

@[simp] theorem failAll_window (ks : List FaultKind) (s : State) : (failAll ks s).window = s.window := by
  rw [failAll_frame]

@[simp] theorem failAll_head (ks : List FaultKind) (s : State) : (failAll ks s).head = s.head := by
  rw [failAll_frame]

@[simp] theorem failAll_seenValid (ks : List FaultKind) (s : State) : (failAll ks s).seenValid = s.seenValid := by
  rw [failAll_frame]

theorem failAll_consecutive (ks : List FaultKind) (s : State) :
    (failAll ks s).consecutive = s.consecutive + BitVec.ofNat 16 ks.length := by
  induction ks using List.reverseRecOn with
  | nil => exact (BitVec.add_zero _).symm
  | append_singleton ks k ih =>
    rw [failAll_append_singleton, decodeFails_consecutive, ih, List.length_append, List.length_singleton, BitVec.ofNat_add]
    exact BitVec.add_assoc _ _ _

theorem failAll_errorcount_toNat (ks : List FaultKind) (s : State) :
    (failAll ks s).errorcount.toNat = min (s.errorcount.toNat + ks.length) 0xFFFFFFFF := by
  induction ks using List.reverseRecOn with
  | nil => exact (Nat.min_eq_left (Nat.le_pred_of_lt s.errorcount.isLt)).symm
  | append_singleton ks k ih =>
    rw [failAll_append_singleton, decodeFails_errorcount, saturatingIncrement_toNat, ih, List.length_append, List.length_singleton]
    omega

section
variable {s : State} {ks : List FaultKind} (hc : s.consecutive = 0)
include hc

/-- The counter does not wrap: `LIMIT` is of its width. -/
theorem failAll_consecutive_toNat (h : ks.length ≤ s.cfgLIMIT.toNat) : (failAll ks s).consecutive.toNat = ks.length := by
  have hlimit := s.cfgLIMIT.isLt
  have hcount : (failAll ks s).consecutive = BitVec.ofNat 16 ks.length := by
    rw [failAll_consecutive, hc]
    exact BitVec.zero_add _
  rw [hcount, BitVec.toNat_ofNat, Nat.mod_eq_of_lt (by omega)]

/-- The comparison of `fail` sees the incremented counter, so only the failure that brings it to `LIMIT` raises the fault. -/
theorem failAll_append_singleton_fsm (k : FaultKind) (h : ks.length < s.cfgLIMIT.toNat) :
    (failAll (ks ++ [k]) s).fsm = if ks.length + 1 = s.cfgLIMIT.toNat then .faulted k else (failAll ks s).fsm := by
  have hreaches : s.cfgLIMIT ≤ (failAll ks s).consecutive + 1 ↔ ks.length + 1 = s.cfgLIMIT.toNat := by
    have hcount := failAll_consecutive_toNat hc h.le
    bv_omega
  rw [failAll_append_singleton, decodeFails_fsm, failAll_cfgLIMIT]
  exact if_congr hreaches rfl rfl

theorem failAll_fsm_of_lt (hf : s.fsm = .running) (h : ks.length < s.cfgLIMIT.toNat) : (failAll ks s).fsm = .running := by
  induction ks using List.reverseRecOn with
  | nil => exact hf
  | append_singleton ks k ih =>
    rw [List.length_append, List.length_singleton] at h
    rw [failAll_append_singleton_fsm hc k (by omega), if_neg h.ne]
    exact ih (by omega)

end

/-- Settles O46: the counters count the failures, the rest is their frame, and the last failure alone meets `LIMIT`. -/
theorem sustainedFailuresFault : Obligations.SustainedFailuresFault := by
  intro s ks hf hc _ hle t
  refine ⟨failAll_consecutive_toNat hc hle, failAll_errorcount_toNat ks s, failAll_window ks s, failAll_head ks s,
    failAll_seenValid ks s, failAll_fsm_of_lt hc hf, fun hlimit k hk => ?_⟩
  obtain ⟨js, rfl⟩ := List.getLast?_eq_some_iff.mp hk
  rw [List.length_append, List.length_singleton] at hlimit
  exact (failAll_append_singleton_fsm hc k (by omega)).trans (if_pos hlimit)

/-! ### What `FAULTED` keeps, and what leaves it (44_fault.md R176, R177) -/

/-- A `DECODE` in `FAULTED` consumes its request and judges nothing (42_decode.md R140). -/
theorem exec_decode_sameDecodeView_of_faulted {s t : State} {k : FaultKind} (hf : s.fsm = .faulted k) (h : exec .decode s = .next t) :
    SameDecodeView s t := by
  obtain ⟨-, rfl⟩ := exec_decode_eq_next_iff.mp h
  split
  · rw [consumeRequest_of_faulted hf]
    exact ⟨rfl, rfl, rfl, rfl, rfl, rfl⟩
  · exact ⟨rfl, rfl, rfl, rfl, rfl, rfl⟩

/-- The owners of the decode view are `DECODE`, `INIT` and the `START` that restarts (10_state.md R31). -/
theorem exec_sameDecodeView {i : Instr} {s t : State} (hi : isInit i = false) (hd : i ≠ .decode) (hr : restarts i s = false)
    (h : exec i s = .next t) : SameDecodeView s t := by
  obtain ⟨-, -, -, -, -, -, -, -, hwindow, hcount, -⟩ := fieldsAreWrittenByTheirOwners i s t h
  obtain ⟨hw, hhead, hc, hf⟩ := hwindow hi hd hr
  obtain ⟨he, hv⟩ := hcount hi hd
  exact ⟨hw, hhead, hc, he, hv, hf⟩

theorem restarts_iff {i : Instr} {s : State} : restarts i s = true ↔ i = .start ∧ s.running = false ∧ s.cfgRR = true := by
  simp only [restarts, Bool.and_eq_true, decide_eq_true_eq, Bool.not_eq_true', and_assoc]

theorem exec_start_of_restarts {s t : State} (hr : restarts .start s = true) (h : exec .start s = .next t) :
    t = respond .ok 0 (restartReset (detectorIdle { s with running := true })) := by
  obtain ⟨-, hrun, hrr⟩ := restarts_iff.mp hr
  obtain ⟨-, rfl⟩ := exec_start_eq_next_iff.mp h
  rw [if_neg (Bool.eq_false_iff.mp hrun), if_pos hrr]

theorem exec_legal_init_leaves_fault {i : Instr} {s t : State} (hi : isInit i = true) (hw : i.wellFormed = true)
    (h : exec i s = .next t) : t.fsm = .running ∧ t.consecutive = 0 := by
  cases i with
  | init a r f l =>
    obtain ⟨hf, hl⟩ := wellFormed_init_iff.mp hw
    obtain rfl := Host.Outcome.next.inj ((exec_init_of_legal a r hf hl s).symm.trans h)
    exact ⟨rfl, rfl⟩
  | _ => cases hi

/-- Settles O47: the operations by whether they own the decode view; `INIT` and `restart_reset` clear the escalation. -/
theorem faultedIsTerminal : Obligations.FaultedIsTerminal := by
  intro i s t k hf h
  refine ⟨fun hi hr => ?_, fun hi hw => exec_legal_init_leaves_fault hi hw h, fun hr => ?_⟩
  · by_cases hd : i = .decode
    · subst hd
      exact exec_decode_sameDecodeView_of_faulted hf h
    · exact exec_sameDecodeView hi hd hr h
  · obtain ⟨rfl, -, -⟩ := restarts_iff.mp hr
    rw [exec_start_of_restarts hr h]
    exact ⟨rfl, rfl⟩

end Sys2Proof.Machine

/-! ## 45_host.md: the host operations -/

namespace Sys2Proof.Machine

/-! ### `INIT`: its word as a number, legal and illegal operands (45_host.md R190, R191) -/

theorem toNat_append_eq {m n : Nat} (x : BitVec m) (y : BitVec n) : (x ++ y).toNat = x.toNat * 2 ^ n + y.toNat := by
  rw [BitVec.toNat_append, ← Nat.shiftLeft_add_eq_or_of_lt y.isLt, Nat.shiftLeft_eq]

theorem operandI_toNat (a r : Bool) (f : BitVec 8) (l : BitVec 16) :
    (operandI a r f l).toNat = a.toNat * 2 ^ 31 + r.toNat * 2 ^ 30 + f.toNat * 2 ^ 16 + l.toNat := by
  simp only [operandI, toNat_append_eq, BitVec.toNat_ofBool, BitVec.toNat_ofNat]
  omega

theorem encode_init_toNat (a r : Bool) (f : BitVec 8) (l : BitVec 16) :
    (encode (.init a r f l)).toNat = 0x1 * 2 ^ 32 + a.toNat * 2 ^ 31 + r.toNat * 2 ^ 30 + f.toNat * 2 ^ 16 + l.toNat := by
  rw [encode, opWord_toNat, operandI_toNat, ← Nat.add_assoc, ← Nat.add_assoc, ← Nat.add_assoc]
  rfl

/-- Settles O16: the word by its fields' weights, the listed word among those of O1, and each field read off `resetState`. -/
theorem initResetsEveryField : Obligations.InitResetsEveryField :=
  ⟨encode_init_toNat, specWordsDecode.1, fun a r _ _ s hf hl =>
    ⟨_, exec_init_of_legal a r hf hl s,
      rfl, rfl, rfl, rfl, rfl, rfl, rfl, rfl, rfl, rfl, rfl, rfl, rfl, rfl, rfl, rfl, rfl⟩⟩

/-- Settles O17: the decoder refuses such a word, and the configuration is owned by `INIT` alone. -/
theorem illegalInitChangesNothing : Obligations.IllegalInitChangesNothing := by
  obtain ⟨hrefused, hunchanged, -⟩ := refusedWordsChangeNothing
  refine ⟨fun w s hi hopcode hfields => ?_, fun i s t hinit h => (fieldsAreWrittenByTheirOwners i s t h).1 hinit⟩
  have hoperand : w.toNat % 2 ^ 32 / 2 ^ 24 % 2 ^ 6 ≠ 0 ∨ w.toNat % 2 ^ 32 / 2 ^ 16 % 2 ^ 8 = 0 ∨ w.toNat % 2 ^ 32 % 2 ^ 16 = 0 := by
    omega
  exact hunchanged w s hi ((hrefused w).mpr (.inr (.inr ⟨hopcode, hoperand⟩)))

/-- Settles O55: the operation tests its operands before it writes anything. -/
theorem illegalInitOperandsChangeNothing : Obligations.IllegalInitOperandsChangeNothing := fun _ _ _ _ _ hi hfl =>
  exec_init_eq_next_iff.mpr (.inl ⟨hfl, hi, rfl⟩)

/-! ### One equation a case of the other host operations (45_host.md R192 to R198) -/

section
variable {s : State} (hi : s.initialised = true)
include hi

theorem exec_start_of_running (hr : s.running = true) : exec .start s = .next { s with response := ⟨.ok, 0⟩ } :=
  exec_start_eq_next_iff.mpr ⟨hi, by rw [if_pos hr]; rfl⟩

/-- With `RR` = 0 capture resumes and the decode view stays. -/
theorem exec_start_of_stopped (hr : s.running = false) (hrr : s.cfgRR = false) :
    exec .start s = .next (respond .ok 0 (detectorIdle { s with running := true })) :=
  exec_start_eq_next_iff.mpr ⟨hi, by rw [if_neg (Bool.eq_false_iff.mp hr), if_neg (Bool.eq_false_iff.mp hrr)]⟩

/-- With `RR` = 1 `restart_reset` follows (R193). -/
theorem exec_start_of_stopped_restart (hr : s.running = false) (hrr : s.cfgRR = true) :
    exec .start s = .next (respond .ok 0 (restartReset (detectorIdle { s with running := true }))) :=
  exec_start_eq_next_iff.mpr ⟨hi, by rw [if_neg (Bool.eq_false_iff.mp hr), if_pos hrr]⟩

theorem exec_stop_of_stopped (hr : s.running = false) : exec .stop s = .next { s with response := ⟨.ok, 0⟩ } :=
  exec_stop_eq_next_iff.mpr ⟨hi, by rw [if_neg (Bool.eq_false_iff.mp hr)]; rfl⟩

theorem exec_rdtemp_of_stopped (hr : s.running = false) : exec .rdtemp s = .next { s with response := ⟨.notRunning, 0⟩ } :=
  exec_rdtemp_eq_next_iff.mpr ⟨hi, .inl ⟨hr, rfl⟩⟩

theorem exec_rdtemp_of_faulted {k : FaultKind} (hr : s.running = true) (hf : s.fsm = .faulted k) :
    exec .rdtemp s = .next { s with response := ⟨kindStatus k, 0⟩ } :=
  exec_rdtemp_eq_next_iff.mpr ⟨hi, .inr (.inl ⟨k, hr, hf, rfl⟩)⟩

theorem exec_rderr_of_unseen (hv : s.seenValid = false) : exec .rderr s = .next { s with response := ⟨.noReading, 0⟩ } :=
  exec_rderr_eq_next_iff.mpr ⟨hi, by rw [if_neg (Bool.eq_false_iff.mp hv)]; rfl⟩

theorem exec_rderr_of_seen (hv : s.seenValid = true) : exec .rderr s = .next { s with response := ⟨.ok, s.errorcount⟩ } :=
  exec_rderr_eq_next_iff.mpr ⟨hi, by rw [if_pos hv]; rfl⟩

end

/-- Settles O18: the word by evaluation, and one equation a case. -/
theorem startResumesFromIdle : Obligations.StartResumesFromIdle :=
  ⟨by decide, fun _ hi => ⟨exec_start_of_running hi, exec_start_of_stopped hi, exec_start_of_stopped_restart hi⟩⟩

/-- Settles O19: the word by evaluation, and one equation a case. -/
theorem stopDropsTheFrameInProgress : Obligations.StopDropsTheFrameInProgress :=
  ⟨by decide, fun _ hi => ⟨exec_stop_of_stopped hi, exec_stop_of_running hi⟩⟩

/-- Settles O21: the word by evaluation, and one equation a case. -/
theorem rderrAnswersTheCount : Obligations.RderrAnswersTheCount :=
  ⟨by decide, fun _ hi => ⟨exec_rderr_of_unseen hi, exec_rderr_of_seen hi⟩⟩

/-- The median is the middle element of any ascending list of the window's values that has one (43_filter.md R162). -/
theorem medianCode_eq_of_sorted {s : State} {sorted : List RawCode} {m : RawCode} (hp : sorted.Perm s.window)
    (hs : sorted.Pairwise (· ≤ ·)) (hm : sorted[s.cfgF.toNat / 2]? = some m) : medianCode s = m := by
  rw [medianCode, medianOf_eq_of_sorted _ hp hs, List.getD_eq_getElem?_getD, hm, Option.getD_some]

/-- Settles O20: the word by evaluation, one equation a case, and the value read off the ascending list. -/
theorem rdtempAnswersByPriority : Obligations.RdtempAnswersByPriority := by
  refine ⟨by decide, fun s hi => ⟨exec_rdtemp_of_stopped hi, exec_rdtemp_of_faulted hi, exec_rdtemp_of_faulted hi,
    exec_rdtemp_of_faulted hi, fun hr hf sorted m hp hs hm => ?_⟩⟩
  rw [← medianCode_eq_of_sorted hp hs hm]
  exact exec_rdtemp_of_running hi hr hf

/-! ### `START` and `STOP` repeated (95_test_vectors.md S8, S9) -/

/-- Whatever the state was, a `START` leaves the machine running. -/
theorem exec_start_running {s t : State} (h : exec .start s = .next t) : t.running = true := by
  obtain ⟨-, rfl⟩ := exec_start_eq_next_iff.mp h
  rw [respond_running]
  split
  · assumption
  · split <;> rfl

/-- Whatever the state was, a `STOP` leaves the machine stopped. -/
theorem exec_stop_running {s t : State} (h : exec .stop s = .next t) : t.running = false := by
  obtain ⟨-, rfl⟩ := exec_stop_eq_next_iff.mp h
  rw [respond_running]
  split
  · rfl
  · exact Bool.eq_false_iff.mpr ‹_›

theorem exec_start_response {s t : State} (h : exec .start s = .next t) : t.response = ⟨.ok, 0⟩ := by
  obtain ⟨-, rfl⟩ := exec_start_eq_next_iff.mp h
  rfl

theorem exec_stop_response {s t : State} (h : exec .stop s = .next t) : t.response = ⟨.ok, 0⟩ := by
  obtain ⟨-, rfl⟩ := exec_stop_eq_next_iff.mp h
  rfl

/-- The answer that already stands is no change. -/
theorem with_response_eq_self {s : State} {r : Response} (h : s.response = r) : { s with response := r } = s := by
  subst h
  rfl

/-- Settles O23: the second of two `START`s or `STOP`s finds `running` as it wants it and the same answer standing. -/
theorem startAndStopAreIdempotent : Obligations.StartAndStopAreIdempotent := by
  refine fun s t => ⟨fun h => ?_, fun h => ?_⟩
  · have hi := (exec_keepsSchedule h).initialised (exec_start_eq_next_iff.mp h).1
    rw [exec_start_of_running hi (exec_start_running h), with_response_eq_self (exec_start_response h)]
  · have hi := (exec_keepsSchedule h).initialised (exec_stop_eq_next_iff.mp h).1
    have hstopped := exec_stop_running h
    refine ⟨?_, exec_rdtemp_of_stopped hi hstopped⟩
    rw [exec_stop_of_stopped hi hstopped, with_response_eq_self (exec_stop_response h)]

end Sys2Proof.Machine

/-! ## 60_exceptions.md: the entry into the hard fault, and what survives `STOP` then `START` -/

namespace Sys2Proof.Machine

/-! ### The hard fault is entered by a failed `DECODE` alone (60_exceptions.md R230) -/

/-- Of the owners of `fsm` (10_state.md R31), `INIT` and the `START` that restarts only ever leave it `RUNNING`. -/
theorem exec_fsm_running_of_ne_decode {i : Instr} {s t : State} (hf : s.fsm = .running) (hd : i ≠ .decode)
    (h : exec i s = .next t) : t.fsm = .running := by
  cases hi : isInit i with
  | true =>
    obtain ⟨a, r, f, l, rfl⟩ := exists_init_of_isInit hi
    obtain ⟨-, -, rfl⟩ | ⟨-, rfl⟩ := exec_init_eq_next_iff.mp h
    · exact hf
    · rfl
  | false =>
    cases hr : restarts i s with
    | true =>
      obtain ⟨rfl, -, -⟩ := restarts_iff.mp hr
      rw [exec_start_of_restarts hr h]
      rfl
    | false =>
      obtain ⟨-, -, -, -, -, hfsm⟩ := exec_sameDecodeView hi hd hr h
      exact hfsm.trans hf

/-- A `DECODE` that takes `RUNNING` to `FAULTED` had a request, and its snapshot fails with the kind of the fault (44_fault.md R172). -/
theorem exec_decode_enters_fault {s t : State} {k : FaultKind} (hf : s.fsm = .running) (h : exec .decode s = .next t)
    (ht : t.fsm = .faulted k) : s.pending = true ∧ snapshotVerdict s.snapLen s.snapshot = .failure k := by
  obtain ⟨hi, -⟩ := exec_decode_eq_next_iff.mp h
  cases hp : s.pending with
  | false =>
    obtain rfl := Host.Outcome.next.inj ((exec_decode_of_not_pending hi hp).symm.trans h)
    cases hf.symm.trans ht
  | true =>
    refine ⟨rfl, ?_⟩
    cases hv : snapshotVerdict s.snapLen s.snapshot with
    | success c =>
      obtain rfl := Host.Outcome.next.inj ((exec_decode_of_success hi hp hf hv).symm.trans h)
      cases hf.symm.trans ht
    | failure j =>
      obtain rfl := Host.Outcome.next.inj ((exec_decode_of_failure hi hp hf hv).symm.trans h)
      dsimp only at ht
      split at ht
      · rw [Fsm.faulted.inj ht]
      · cases ht

/-- Settles O48: no other operation enters `FAULTED`, and there the invariant puts the counter at `LIMIT`. -/
theorem onlyDecodeEntersTheHardFault : Obligations.OnlyDecodeEntersTheHardFault := by
  intro i s t k hinv hf h ht
  obtain rfl : i = .decode := by
    by_contra hd
    cases (exec_fsm_running_of_ne_decode hf hd h).symm.trans ht
  obtain ⟨hp, hv⟩ := exec_decode_enters_fault hf h ht
  have hlimit := (exec_keeps_inv hinv h).atLimit k ht
  obtain rfl := Host.Outcome.next.inj ((exec_decode_of_failure hinv.initialised hp hf hv).symm.trans h)
  dsimp only at hlimit ht
  refine ⟨rfl, hp, hv, hlimit, ?_⟩
  rw [ht, hlimit]

/-! ### `STOP` then `START` (60_exceptions.md R245) -/

/-- Settles O24: the `START` finds the machine stopped by the `STOP`, and what it restores of that is `running`. -/
theorem stopThenStartContinuesOrRestarts : Obligations.StopThenStartContinuesOrRestarts := by
  intro s hi hr
  rw [execAll_cons_of_next (exec_stop_of_running hi hr), execAll_singleton]
  refine ⟨fun hrr => ?_, fun hrr => ?_⟩
  · rw [exec_start_of_stopped, ← hr]
    exacts [rfl, hi, rfl, hrr]
  · rw [exec_start_of_stopped_restart, ← hr]
    exacts [rfl, hi, rfl, hrr]

end Sys2Proof.Machine

/-! ## 70_reset_and_hazards.md: runs begin with `INIT`, inverted frames, and the eager schedule -/

namespace Sys2Proof.Machine

/-! ### Before the first `INIT` (70_reset_and_hazards.md R260) -/

/-- An operation of an uninitialised machine has a meaning only if it is an `INIT`. -/
theorem exec_of_not_initialised {i : Instr} {s : State} (hs : s.initialised = false) (hi : isInit i = false) :
    exec i s = .refused .beforeInit := by
  cases i with
  | init a r f l => cases hi
  | _ => exact afterInit_of_not_initialised hs _

/-- A word that decodes to an `INIT` carries legal operands, so it is accepted in any state. -/
theorem performWord_init {w : OpWord} {a r : Bool} {f : BitVec 8} {l : BitVec 16} (hd : decodeWord w = .ok (.init a r f l))
    (s : State) : performWord w s = .next (respond .ok 0 (resetState a r f l s)) := by
  obtain ⟨hlegal, -⟩ := encodeOfDecodedWordIsWord w _ hd
  obtain ⟨hf, hl⟩ := wellFormed_init_iff.mp hlegal
  rw [performWord_of_decode hd, exec_init_of_legal a r hf hl]

/-- Settles O10: an `INIT` word is legal once decoded; any other word stops at the flag, decoded or not. -/
theorem runsBeginWithInit : Obligations.RunsBeginWithInit := by
  refine ⟨rfl, fun w s hs => ⟨fun a r f l hd => ⟨_, performWord_init hd s, rfl, rfl⟩, fun hother => ?_⟩⟩
  rcases performWord_cases w s with ⟨i, hd, hp⟩ | ⟨e, -, hp⟩
  · have hi : isInit i = false := Bool.eq_false_iff.mpr fun hinit => by
      obtain ⟨a, r, f, l, rfl⟩ := exists_init_of_isInit hinit
      exact hother a r f l hd
    exact hp.trans (exec_of_not_initialised hs hi)
  · exact hp.trans (afterInit_of_not_initialised hs _)

/-! ### All bits inverted (70_reset_and_hazards.md R279) -/

/-- Of a position and its inverse exactly one is a one. -/
theorem ones_add_ones_of_inverted {a b : Buffer} {ps : List (Fin 14)} (h : ∀ i ∈ ps, sampleBit b i = !sampleBit a i) :
    ones a ps + ones b ps = ps.length := by
  have hflip : ∀ i ∈ ps, bitValue a i + bitValue b i = 1 := fun i hi =>
    bitValue_add_bitValue_of_flip (by rw [h i hi]; exact Bool.self_ne_not _)
  rw [ones, ones, ← List.sum_map_add, List.map_congr_left hflip, List.map_const', List.sum_replicate, smul_eq_mul, mul_one]

/-- Settles O39: the low group has nine positions, so inverting an even number of ones leaves an odd one. -/
theorem invertedFrameFailsParity : Obligations.InvertedFrameFailsParity := by
  intro a b hinv hlow _
  rw [lowParityOk_frameBits_iff] at hlow
  have hsum : ones a lowGroup + ones b lowGroup = 9 :=
    ones_add_ones_of_inverted fun i hi => hinv i ((ne_zero_iff_mem_group i).mpr (.inl hi))
  exact snapshotVerdict_of_odd (.inl (by omega)) 14

/-! ### The eager schedule (70_reset_and_hazards.md R276) -/

/-- The state in which `DECODE` finds the full frame `vs` that came in from rest and was handed over at once. -/
def requestOfFrame (vs : Buffer) (s : State) : State :=
  { s with
    active := vs, snapshot := vs, snapLen := 14, pending := true
    capState := .idle, wpos := 0, sealedLen := 0, response := ⟨.ok, 0⟩ }

/-- `RUN` with a frame waiting: the hand-off goes through, so what is left is its `DECODE` (30_encoding.md R91). -/
theorem execAll_run_of_complete {s : State} (hi : s.initialised = true) (hc : s.capState = .complete) :
    execAll expandRun s = exec .decode (respond .ok 0 (handOver s)) := by
  rw [expandRun, execAll_cons_of_next (exec_handoff_of_complete hi hc), execAll_singleton]

/-- Fourteen samples from rest, then `HANDOFF`, leave the decode request of a full frame. -/
theorem execAll_samples_run {s : State} (hi : s.initialised = true) (hr : s.running = true) (hc : s.capState = .idle)
    (vs : Buffer) : execAll (vs.toList.map .edge ++ expandRun) s = exec .decode (requestOfFrame vs s) := by
  rw [execAll_append_of_next (execAll_all_samples_of_idle hi hr hc vs)]
  exact execAll_run_of_complete hi rfl

theorem rangeVerdict_of_sentinel {c : RawCode} (h : c = 0 ∨ c = 2047) :
    rangeVerdict c = .failure (if c = 0 then .lowRange else .highRange) := by
  rcases h with rfl | rfl <;> rfl

theorem rangeVerdict_of_valid {c : RawCode} (h : ¬ (c = 0 ∨ c = 2047)) : rangeVerdict c = .success c := by
  obtain ⟨hzero, htop⟩ := not_or.mp h
  rw [rangeVerdict, if_neg hzero, if_neg htop]

/-- Settles O53: the run is the `DECODE` of the full frame of `c`, which succeeds or fails with the range of `c`. -/
theorem eagerFrameLeadsToSuccess : Obligations.EagerFrameLeadsToSuccess := by
  intro theta lo hi c s hlo hhi hs hr hc hf
  have hrun : execAll (expandFrameRun theta lo hi c) s = _ := execAll_samples_run hs hr hc _
  have hverdict : snapshotVerdict 14 (samplesOfBits theta lo hi (bitsOfCode c)) = rangeVerdict c :=
    frameOfACodeDecodesToIt theta lo hi c hlo hhi
  by_cases hsentinel : c = 0 ∨ c = 2047
  · have hstep := exec_decode_of_failure (s := requestOfFrame _ s) hs rfl hf
      (hverdict.trans (rangeVerdict_of_sentinel hsentinel))
    exact ⟨_, hrun.trans hstep, ⟨rfl, nofun⟩, rfl, rfl, rfl, rfl, rfl, fun hzero htop => absurd hsentinel (not_or.mpr ⟨hzero, htop⟩),
      fun _ => ⟨rfl, rfl, rfl, rfl⟩, ⟨rfl, rfl, rfl⟩, ⟨rfl, rfl, rfl, rfl, rfl, rfl⟩, hr⟩
  · have hstep := exec_decode_of_success (s := requestOfFrame _ s) hs rfl hf
      (hverdict.trans (rangeVerdict_of_valid hsentinel))
    exact ⟨_, hrun.trans hstep, ⟨rfl, nofun⟩, rfl, rfl, rfl, rfl, rfl, fun _ _ => ⟨rfl, rfl, rfl, rfl, rfl, hf⟩,
      fun h => absurd h hsentinel, ⟨rfl, rfl, rfl⟩, ⟨rfl, rfl, rfl, rfl, rfl, rfl⟩, hr⟩

end Sys2Proof.Machine
